-- ==== Sys2Proof/Word.lean ====
section
/-! DEFINITION. The words of the block (00_scope.md R7): a byte is 8 bits; a register access, a sample
pattern and a command word are 32 bits; bit 0 is the least significant bit. -/

namespace Sys2Proof

/-- A byte of OUT (00_scope.md R7). -/
abbrev Byte := BitVec 8

/-- A 32-bit word: a register access (10_state.md R26) or a binary32 pattern (30_encoding.md R94). -/
abbrev Word := BitVec 32

end Sys2Proof
end

