-- ==== Sys2Proof/Config.lean ====
section
/-! DEFINITION. The parameters of 00_scope.md R5 that are fixed for one block: `TIE` and `NAN_CODE`.
(`OUT_CAP` stands in State, log 8; `N_INST` is one, log 15.) -/

namespace Sys2Proof

/-- The two tie-breaking rules the source permits (42_quantizer.md R173). -/
inductive Tie where
  /-- round half away from zero -/
  | away
  /-- round half to even -/
  | even
  deriving DecidableEq, Repr

/-- `TIE = away`: "This hardware rounds half away from zero" (R173, decision D7). DEDUCED, log 7. -/
def Config.tie : Tie := .away

/-- `NAN_CODE` (R176, U1): the 16-bit code of every NaN sample. The spec leaves it open, so it has no
body and no proof can see it. DESIGN CHOICE, log 6. -/
opaque Config.nanCode : BitVec 16

end Sys2Proof
end

