-- ==== Sys2Proof/Syntax.lean ====
section
/-! DEFINITION. The eighteen operations of spec/opcode_table.json (30_encoding.md R90, R100), the four
formats they are encoded in, the registers of the map (10_state.md R26), and the events of the machine:
what HOST can do (40_commands.md R127, R128; 70_reset_and_hazards.md R230) and a turn of ENC. -/

namespace Sys2Proof

/-- The four operation formats (R90). -/
inductive Format where
  /-- the value of FMT at the CHECK step, 32 bits (R91) -/
  | cmd
  /-- the word HOST writes to CTRL, 32 bits (R92) -/
  | ctrl
  /-- HP in HEADER, 4 bits (R93) -/
  | hstep
  /-- WSEL in PAYLOAD, 1 bit (R93) -/
  | wsel
  deriving DecidableEq, Repr

/-- One constructor per row of spec/opcode_table.json. No operation has an operand in its word (R99). -/
inductive Instr where
  /-- `ENC.I16` (R123): the CHECK step that selects the Int16 writer -/
  | encI16
  /-- `ENC.F32` (R124): the CHECK step that selects the Float32 writer -/
  | encF32
  /-- `ACK` (R125) -/
  | ack
  /-- ChunkID (R146) -/
  | h0
  /-- ChunkSize (R147) -/
  | h1
  /-- Format (R148) -/
  | h2
  /-- Subchunk1ID (R149) -/
  | h3
  /-- Subchunk1Size (R150) -/
  | h4
  /-- AudioFormat (R151) -/
  | h5
  /-- NumChannels (R152) -/
  | h6
  /-- SampleRate (R153) -/
  | h7
  /-- ByteRate (R154) -/
  | h8
  /-- BlockAlign (R155) -/
  | h9
  /-- BitsPerSample (R156) -/
  | h10
  /-- Subchunk2ID (R157) -/
  | h11
  /-- Subchunk2Size (R158) -/
  | h12
  /-- `SMP.Q16` (R194): the Int16 writer -/
  | smpQ16
  /-- `SMP.F32` (R195): the Float32 writer -/
  | smpF32
  deriving DecidableEq, Repr

/-- The registers of the map (R26). -/
inductive Reg where
  | ctrl | status | fmt | nch | nfr | srate | flenLo | flenHi
  deriving DecidableEq, Repr

/-- What HOST can do to one instance (R127, R128), and the reset event (R230). -/
inductive HostAction where
  /-- write `value` at byte offset `offset` of the register block, `size` bytes wide (R26) -/
  | regWrite (offset size : Nat) (value : Word)
  /-- read `size` bytes at byte offset `offset` of the register block (R26) -/
  | regRead (offset size : Nat)
  /-- read `n` bytes of OUT from `addr` (R72, R105) -/
  | outRead (addr n : Nat)
  /-- put a pattern at SRC location (c, i), or take the location's pattern away (R105 `SMP`, log 10) -/
  | sample (c : BitVec 16) (i : BitVec 32) (w : Option Word)
  /-- the reset event (R230) -/
  | reset
  deriving DecidableEq, Repr

/-- One turn of the two agents (00_scope.md R9, 10_state.md R43): HOST acts, or ENC takes a step. -/
inductive Event where
  | host (a : HostAction)
  | enc
  deriving DecidableEq, Repr

end Sys2Proof
end

