-- ==== Sys2Proof/WellFormed.lean ====
section
/-! DEFINITION. Well-formedness. An operation has no operand in its word (30_encoding.md R99), so every
`Instr` is well formed; what HOST asks can be ill formed: a register access must be one aligned 32-bit
word at a listed offset (10_state.md R26, U9). -/

namespace Sys2Proof

/-- Every operation of the table is well formed: its word has no operand that could be out of range (R99). -/
def Instr.wf : Instr → Bool
  | .encI16 => true
  | .encF32 => true
  | .ack => true
  | .h0 => true
  | .h1 => true
  | .h2 => true
  | .h3 => true
  | .h4 => true
  | .h5 => true
  | .h6 => true
  | .h7 => true
  | .h8 => true
  | .h9 => true
  | .h10 => true
  | .h11 => true
  | .h12 => true
  | .smpQ16 => true
  | .smpF32 => true

/-- A register access the map of R26 gives a meaning: 32 bits wide, aligned, at 0x00 … 0x1C. -/
def regAccessWf (offset size : Nat) : Bool :=
  size == 4 && offset % 4 == 0 && decide (offset ≤ 0x1C)

/-- HOST's actions that the spec gives a meaning whatever the phase. (OUT reads are checked against
PHASE and FLEN when they happen, R72.) -/
def HostAction.wf : HostAction → Bool
  | .regWrite offset size _ => regAccessWf offset size
  | .regRead offset size => regAccessWf offset size
  | .outRead _ _ => true
  | .sample _ _ _ => true
  | .reset => true

end Sys2Proof
end

