-- ==== Sys2Proof/Decode.lean ====
section
/-! DEFINITION. Decoding and encoding (30_encoding.md R90 to R93, R100 to R102; spec/opcode_table.json).
What selects an operation is a word in one of four formats; the format is not in the word but in SEQ
(R90), so the decoder takes it as an argument. Every word that is no operation is rejected by name. -/

namespace Sys2Proof

/-- Why a word is no row of the table, by name. -/
inductive Unlisted where
  /-- CMD: FMT is neither 1 nor 3; CHECK raises `UnsupportedFormat` (R101) -/
  | unknownSelector
  /-- CTRL bits 1:0 = 0b00: no operation (R27) -/
  | ctrlNone
  /-- CTRL bits 1:0 = 0b01: START, "the first half of `ENC.*`" (R90, R121) -/
  | ctrlStart
  /-- CTRL bits 1:0 = 0b11: reserved, no operation (R27, R102) -/
  | ctrlReserved
  /-- HSTEP 13, 14, 15: "select nothing" (R93) -/
  | headerStepReserved
  deriving DecidableEq, Repr

/-- CMD (R91): all 32 bits take part in the comparison. -/
def decodeCmd (w : Word) : Except Unlisted Instr :=
  if w = 0x00000001#32 then .ok .encI16
  else if w = 0x00000003#32 then .ok .encF32
  else .error .unknownSelector

/-- CTRL (R27, R92): bits 31:2 are ignored. -/
def decodeCtrl (w : Word) : Except Unlisted Instr :=
  match w.toNat % 4 with
  | 0 => .error .ctrlNone
  | 1 => .error .ctrlStart
  | 2 => .ok .ack
  | _ => .error .ctrlReserved

/-- HSTEP (R93): HP = 0 … 12 selects H0 … H12. -/
def decodeHstep (w : Word) : Except Unlisted Instr :=
  match w.toNat % 16 with
  | 0 => .ok .h0
  | 1 => .ok .h1
  | 2 => .ok .h2
  | 3 => .ok .h3
  | 4 => .ok .h4
  | 5 => .ok .h5
  | 6 => .ok .h6
  | 7 => .ok .h7
  | 8 => .ok .h8
  | 9 => .ok .h9
  | 10 => .ok .h10
  | 11 => .ok .h11
  | 12 => .ok .h12
  | _ => .error .headerStepReserved

/-- WSEL (R93): 0 the Int16 writer, 1 the Float32 writer. -/
def decodeWsel (w : Word) : Except Unlisted Instr :=
  match w.toNat % 2 with
  | 0 => .ok .smpQ16
  | _ => .ok .smpF32

/-- The operation a word selects in a format (R90), total on every word. -/
def decode : Format → Word → Except Unlisted Instr
  | .cmd => decodeCmd
  | .ctrl => decodeCtrl
  | .hstep => decodeHstep
  | .wsel => decodeWsel

/-- The format of each row of the table (R100). -/
def Instr.format : Instr → Format
  | .encI16 | .encF32 => .cmd
  | .ack => .ctrl
  | .h0 | .h1 | .h2 | .h3 | .h4 | .h5 | .h6 | .h7 | .h8 | .h9 | .h10 | .h11 | .h12 => .hstep
  | .smpQ16 | .smpF32 => .wsel

/-- The word of each operation, reserved bits 0: the column `match` of spec/opcode_table.json. -/
def encode : Instr → Word
  | .encI16 => 0x00000001#32
  | .encF32 => 0x00000003#32
  | .ack => 0x00000002#32
  | .h0 => 0x0#32
  | .h1 => 0x1#32
  | .h2 => 0x2#32
  | .h3 => 0x3#32
  | .h4 => 0x4#32
  | .h5 => 0x5#32
  | .h6 => 0x6#32
  | .h7 => 0x7#32
  | .h8 => 0x8#32
  | .h9 => 0x9#32
  | .h10 => 0xA#32
  | .h11 => 0xB#32
  | .h12 => 0xC#32
  | .smpQ16 => 0x0#32
  | .smpF32 => 0x1#32

/-- Which bits of a word a format compares: the column `mask` of spec/opcode_table.json. -/
def Format.mask : Format → Word
  | .cmd => 0xFFFFFFFF#32
  | .ctrl => 0x00000003#32
  | .hstep => 0xF#32
  | .wsel => 0x1#32

/-- The format in which a table row's word is read when nothing but the word and its length in whole
bytes is given. The spec selects the format by SEQ and not by the word (R90), and the same word is a row
of several formats, so this is a reading made for the table alone: a word of up to one byte is read in
the narrowest format it fills (0 and 1 in WSEL, 2 in CTRL, the others in HSTEP); a 32-bit word is read in
CMD or CTRL where it is a row there; everything else is HSTEP. DESIGN CHOICE, log 2. -/
def tableFormat (nbits w : Nat) : Format :=
  if nbits ≤ 8 then
    (if nbits = 4 then .hstep
     else if w < 2 then .wsel
     else if w = 2 then .ctrl
     else .hstep)
  else if nbits ≤ 24 then .hstep
  else if w = 1 ∨ w = 3 then .cmd
  else if w % 4 = 2 then .ctrl
  else .hstep

/-- The operation read from a table row's word (log 2). -/
def decodeTableWord (nbits w : Nat) : Option Instr :=
  (decode (tableFormat nbits w) (BitVec.ofNat 32 w)).toOption

end Sys2Proof
end

