-- ==== Sys2Proof/Machine/State.lean ====
section
/-! DEFINITION. The state (10_state.md R20, R45), as plain data: the block's own registers, sequencer,
latched layout and output buffer, and beside them HOST's side (its sample data, the events to come, what
its last read returned) and the parameter OUT_CAP, which the deterministic step needs to be data. -/

namespace Sys2Proof.Machine

/-- Sparse data under natural-number keys: a list of (key, value) pairs. Canonical form: keys strictly
rising; a key not listed has no value. -/
abbrev Cells (α : Type) := List (Nat × α)

/-- The canonical form: keys strictly rising. -/
abbrev Cells.wf {α : Type} (m : Cells α) : Prop := m.Pairwise fun x y => x.1 < y.1

/-- The bytes of OUT written so far (10_state.md R41), the same pairs as `Host.Cell`. An address not
listed has not been written since the buffer was allocated and has no value (log 9). -/
abbrev Memory := Cells Byte

/-- The canonical form of OUT. -/
abbrev Memory.wf (m : Memory) : Prop := Cells.wf m

/-- HOST's sample data (10_state.md R40), under the key `c * 2^32 + i`. A location not listed is one
HOST has not supplied (20_memory.md R63, log 10). -/
abbrev SrcData := Cells Word

/-- PHASE (10_state.md R30). -/
inductive Phase where
  | idle | check | header | payload | done | error
  deriving DecidableEq, Repr

/-- The two variants of SampleFormat (30_encoding.md R99). -/
inductive Variant where
  | int16 | float32
  deriving DecidableEq, Repr

/-- The latched layout values (10_state.md R33), at their widths. -/
structure Layout where
  /-- WSEL: 0 the Int16 writer, 1 the Float32 writer -/
  wsel : BitVec 1
  /-- AFMT, the AudioFormat code -/
  afmt : BitVec 16
  /-- BITS, bitsPerSample -/
  bits : BitVec 16
  /-- BPS, bytesPerSample -/
  bps : BitVec 3
  /-- BPF, bytesPerFrame -/
  bpf : BitVec 18
  /-- BPSEC, bytesPerSecond -/
  bpsec : BitVec 50
  /-- DLEN, sampleDataLength -/
  dlen : BitVec 50
  /-- FLEN, fileLength -/
  flen : BitVec 50
  deriving DecidableEq, Repr

/-- The layout values of a block that holds no encode: all 0 (R45, R125). -/
def Layout.zero : Layout :=
  { wsel := 0#1, afmt := 0#16, bits := 0#16, bps := 0#3, bpf := 0#18, bpsec := 0#50, dlen := 0#50, flen := 0#50 }

/-- What HOST's last read returned (the model's own, log 12). -/
inductive Reply where
  /-- a register read (R26) -/
  | word (w : Word)
  /-- an OUT read, in address order (R72) -/
  | bytes (bs : List Byte)
  deriving DecidableEq, Repr

structure State where
  /-- FMT, the format selector (R21) -/
  fmt : BitVec 32
  /-- NCH, numberOfChannels (R22) -/
  nch : BitVec 16
  /-- NFR, length in frames (R23) -/
  nfr : BitVec 32
  /-- SRATE, sampleRate (R24) -/
  srate : BitVec 32
  /-- PHASE (R30) -/
  phase : Phase
  /-- HP, the header step that is next in HEADER (R30) -/
  hp : BitVec 4
  /-- K, the sample number that is next in PAYLOAD (R30) -/
  k : BitVec 48
  /-- F, its frame (R31) -/
  f : BitVec 32
  /-- C, its channel (R31) -/
  c : BitVec 16
  /-- the latched layout values (R33) -/
  lay : Layout
  /-- OUT, absent or a buffer of FLEN bytes (R41) -/
  out : Option Memory
  /-- the parameter OUT_CAP, `none` for unbounded; no step changes it (00_scope.md R5, log 8) -/
  outCap : Option Nat
  /-- SRC, HOST's sample data (R40) -/
  src : SrcData
  /-- the events to come, the next one first; when it is empty ENC moves (log 3) -/
  agenda : List Event
  /-- what HOST's last read returned (log 12) -/
  reply : Option Reply
  deriving DecidableEq, Repr

/-- Faults. The block has none of its own: its one exception is a next state (60_exceptions.md R213).
These stop the model in states that no run reaches. -/
inductive Fault where
  /-- Raised by a header or sample step while OUT is absent. Safe: no run reaches it (log 13). -/
  | outAbsent
  /-- Raised by a header or sample step whose bytes do not all lie in [0, FLEN). Safe: no run reaches it (log 13). -/
  | outOutOfRange
  /-- Raised by HOST's read, in DONE, of a byte of OUT that nothing has written. Safe: no run reaches it (log 9). -/
  | outUnwritten
  deriving DecidableEq, Repr

/-- Refusals: the situations the spec gives no meaning. -/
inductive Refusal where
  /-- Raised by exec for an operation without a meaning; safe. -/
  | notModelled (mnemonic : String)
  /-- Raised by CHECK when FLEN > OUT_CAP (20_memory.md R66, U7: "a model refuses it"); safe. -/
  | outCapExceeded
  /-- Raised by a sample step at a location HOST did not supply (R63, U2: "a model refuses it"); safe. -/
  | sampleNotSupplied
  /-- Raised by HOST's read of OUT outside DONE (R72, U5: "a model refuses it"); safe. -/
  | outNotReadable
  /-- Raised by HOST's read of OUT beyond FLEN (R72, U5); safe. -/
  | outReadBeyond
  /-- Raised by a register access that is not an aligned 32-bit word at a listed offset (R26, U9: "a model refuses it"); safe. -/
  | badRegisterAccess
  /-- Raised by ENC in HEADER with HP = 13, 14 or 15, which "select nothing" (30_encoding.md R93); safe: no run reaches it (log 14). -/
  | reservedHeaderStep
  deriving DecidableEq, Repr

/-- The outcome of one step of this machine. -/
abbrev Outcome := Host.Outcome State Fault Refusal

/-- The machine right after reset (R45, 70_reset_and_hazards.md R230): nothing on HOST's side, and
OUT_CAP unbounded (DESIGN CHOICE, logs 3, 8, 10, 12). -/
def State.reset : State :=
  { fmt := 0#32, nch := 0#16, nfr := 0#32, srate := 0#32
    phase := .idle, hp := 0#4, k := 0#48, f := 0#32, c := 0#16
    lay := Layout.zero, out := none
    outCap := none, src := [], agenda := [], reply := none }

end Sys2Proof.Machine
end

