-- ==== Sys2Proof/Machine/Ops.lean ====
section
/-! DEFINITION. The named operations: updates of the state, sparse data, bytes and their order
(20_memory.md R64, R65, R69, R70), reads of SRC (R62), writes of OUT, the entry of `UnsupportedFormat`
(60_exceptions.md R213) and the return from it, which is what ACK does (40_commands.md R125, R217). -/

namespace Sys2Proof.Machine

/-! Named updates: the only ways the meanings change a state. -/

def State.setFmt (s : State) (v : BitVec 32) : State := { s with fmt := v }
def State.setNch (s : State) (v : BitVec 16) : State := { s with nch := v }
def State.setNfr (s : State) (v : BitVec 32) : State := { s with nfr := v }
def State.setSrate (s : State) (v : BitVec 32) : State := { s with srate := v }

/-- `SEQ <- IDLE | CHECK | DONE | ERROR`: PHASE alone changes (log 5). -/
def State.toPhase (s : State) (p : Phase) : State := { s with phase := p }

/-- `SEQ <- HEADER(h)`. -/
def State.toHeader (s : State) (h : BitVec 4) : State := { s with phase := .header, hp := h }

/-- `SEQ <- PAYLOAD(k)` with the counters F and C. -/
def State.toPayload (s : State) (k : BitVec 48) (f : BitVec 32) (c : BitVec 16) : State :=
  { s with phase := .payload, k := k, f := f, c := c }

/-- HP, K, F, C <- 0 (R125). -/
def State.clearCounters (s : State) : State := { s with hp := 0#4, k := 0#48, f := 0#32, c := 0#16 }

def State.setLay (s : State) (l : Layout) : State := { s with lay := l }
def State.setOut (s : State) (m : Option Memory) : State := { s with out := m }
def State.setSrc (s : State) (d : SrcData) : State := { s with src := d }
def State.setAgenda (s : State) (es : List Event) : State := { s with agenda := es }
def State.setReply (s : State) (r : Option Reply) : State := { s with reply := r }

/-! Sparse data. -/

/-- The value under a key, if one is listed. -/
def Cells.get? {α : Type} : Cells α → Nat → Option α
  | [], _ => none
  | (b, v) :: m, a => if a = b then some v else Cells.get? m a

/-- Put a value under a key, keeping the keys strictly rising. -/
def Cells.set {α : Type} : Cells α → Nat → α → Cells α
  | [], a, v => [(a, v)]
  | (b, w) :: m, a, v =>
    if a < b then (a, v) :: (b, w) :: m
    else if a = b then (a, v) :: m
    else (b, w) :: Cells.set m a v

/-- Take away whatever is under a key. -/
def Cells.erase {α : Type} (m : Cells α) (a : Nat) : Cells α := m.filter fun x => x.1 != a

/-! Bytes. -/

/-- The n low bytes of v, least significant first: `v[8k+7 : 8k]` for k = 0 … n-1 (R64). -/
def leBytes (n v : Nat) : List Byte := (List.range n).map fun k => BitVec.ofNat 8 (v / 2 ^ (8 * k))

/-- Little-endian assembly, the sum of `byte k × 2^(8k)` (R70). -/
def leValue : List Byte → Nat
  | [] => 0
  | b :: bs => b.toNat + 256 * leValue bs

/-- The four tags of the header (R97). -/
inductive Tag where
  | riff | wave | fmt | data
  deriving DecidableEq, Repr

/-- The ASCII codes of a tag, first character first (30_encoding.md R97; "fmt " ends in a space). -/
def tagBytes : Tag → List Byte
  | .riff => [0x52#8, 0x49#8, 0x46#8, 0x46#8]
  | .wave => [0x57#8, 0x41#8, 0x56#8, 0x45#8]
  | .fmt => [0x66#8, 0x6D#8, 0x74#8, 0x20#8]
  | .data => [0x64#8, 0x61#8, 0x74#8, 0x61#8]

/-- Store consecutive bytes, the first at the lowest address. -/
def Memory.writeBytes : Memory → Nat → List Byte → Memory
  | m, _, [] => m
  | m, a, b :: bs => Memory.writeBytes (Cells.set m a b) (a + 1) bs

/-- Read n consecutive bytes, if all of them have been written. -/
def Memory.readBytes (m : Memory) : Nat → Nat → Option (List Byte)
  | _, 0 => some []
  | a, n + 1 =>
    match Cells.get? m a, Memory.readBytes m (a + 1) n with
    | some b, some bs => some (b :: bs)
    | _, _ => none

/-- `MemRead(addr, n)`: n bytes assembled little-endian (00_scope.md R8, R70). -/
def memRead (m : Memory) (addr n : Nat) : Option Nat := (Memory.readBytes m addr n).map leValue

/-! Writing OUT. -/

/-- Write the bytes `bs` to OUT at `addr`, then go on with `after`. Every byte must lie in [0, FLEN)
(R41, R68); a write that does not fit changes nothing and faults (log 13). -/
def storeBytes (s : State) (addr : Nat) (bs : List Byte) (after : State → State) : Outcome :=
  match s.out with
  | none => .fault .outAbsent
  | some m =>
    if addr + bs.length ≤ s.lay.flen.toNat then
      .next (after (s.setOut (some (Memory.writeBytes m addr bs))))
    else .fault .outOutOfRange

/-- `MemWrite(addr, n, v)` (R64), then `after`. -/
def memWrite (s : State) (addr n v : Nat) (after : State → State) : Outcome :=
  storeBytes s addr (leBytes n v) after

/-- `MemWriteTag(addr, tag)` (R65), then `after`. -/
def memWriteTag (s : State) (addr : Nat) (t : Tag) (after : State → State) : Outcome :=
  storeBytes s addr (tagBytes t) after

/-! Reading SRC. -/

/-- The key of location (c, i) in the sample data. -/
def srcKey (c : BitVec 16) (i : BitVec 32) : Nat := c.toNat * 2 ^ 32 + i.toNat

/-- `SrcRead(c, i)` (R62): the pattern HOST's data holds there now; none where HOST supplied none (R63). -/
def srcRead (s : State) (c : BitVec 16) (i : BitVec 32) : Option Word := Cells.get? s.src (srcKey c i)

/-- HOST puts a pattern at (c, i) of its sample data, or takes it away (R127). -/
def srcChange (d : SrcData) (c : BitVec 16) (i : BitVec 32) : Option Word → SrcData
  | some w => Cells.set d (srcKey c i) w
  | none => Cells.erase d (srcKey c i)

/-! The exception and the return from it. -/

/-- `raise UnsupportedFormat(FMT)` (60_exceptions.md R213): `SEQ <- ERROR` and nothing else. The
offending selector stays in FMT (R212); OUT and the latched values stay as CHECK found them. -/
def raiseUnsupportedFormat (s : State) : State := s.toPhase .error

/-- The effect of ACK (40_commands.md R125): in DONE and ERROR OUT, the latched values and the counters
are cleared and the block is IDLE; elsewhere nothing happens. -/
def acknowledge (s : State) : State :=
  match s.phase with
  | .done | .error => (((s.setOut none).setLay Layout.zero).clearCounters).toPhase .idle
  | .idle | .check | .header | .payload => s

/-- START (R121): from IDLE to CHECK; ignored in every other phase. -/
def startCommand (s : State) : State :=
  match s.phase with
  | .idle => s.toPhase .check
  | .check | .header | .payload | .done | .error => s

/-- The reset event (70_reset_and_hazards.md R230, R231): every element of the block's state takes its
reset value from any phase; HOST's side and the parameter stay. -/
def resetBlock (s : State) : State :=
  { State.reset with outCap := s.outCap, src := s.src, agenda := s.agenda, reply := s.reply }

end Sys2Proof.Machine
end

