-- ==== Sys2Proof/Machine/Operands.lean ====
section
/-! DEFINITION. Operand assembly: the variant a selector names and its constants (30_encoding.md R99,
41_header_marshaller.md R140, R141), the layout arithmetic (R142), the write pointer (10_state.md R32),
the loop counters (R31), and the register map (R26). -/

namespace Sys2Proof.Machine

/-- The variant a selector names; none for "an unrecognized variant" (R99, R101). -/
def variantOf (fmt : BitVec 32) : Option Variant :=
  if fmt = 1#32 then some .int16 else if fmt = 3#32 then some .float32 else none

/-- bitsPerSample (R99). -/
def Variant.bits : Variant → Nat
  | .int16 => 16
  | .float32 => 32

/-- The AudioFormat code (R99). -/
def Variant.audioFormat : Variant → Nat
  | .int16 => 1
  | .float32 => 3

/-- The writer select (R99). -/
def Variant.wsel : Variant → BitVec 1
  | .int16 => 0#1
  | .float32 => 1#1

/-- `bytesPerSample = ceil(bitsPerSample / 8)` (R141). -/
def Variant.bytes (v : Variant) : Nat := (v.bits + 7) / 8

/-- The layout values CHECK latches (R122, R142). The products are exact; the widths of R33 hold them
without loss. -/
def Layout.of (v : Variant) (nch : BitVec 16) (nfr srate : BitVec 32) : Layout :=
  { wsel := v.wsel
    afmt := BitVec.ofNat 16 v.audioFormat
    bits := BitVec.ofNat 16 v.bits
    bps := BitVec.ofNat 3 v.bytes
    bpf := BitVec.ofNat 18 (nch.toNat * v.bytes)
    bpsec := BitVec.ofNat 50 (srate.toNat * (nch.toNat * v.bytes))
    dlen := BitVec.ofNat 50 (nch.toNat * nfr.toNat * v.bytes)
    flen := BitVec.ofNat 50 (44 + nch.toNat * nfr.toNat * v.bytes) }

/-- `N = NCH × NFR`, the number of samples (R30). -/
def sampleCount (s : State) : Nat := s.nch.toNat * s.nfr.toNat

/-- The offset of row h of the header table; 44, where the payload begins, for h = 13 (R143). -/
def headerOffset (h : Nat) : Nat :=
  [0, 4, 8, 12, 16, 20, 22, 24, 28, 32, 34, 36, 40].getD h 44

/-- `WP = 44 + K × BPS` of the sample that is next (R32, 43_payload_writers.md R193). -/
def samplePointer (s : State) : Nat := 44 + s.k.toNat * s.lay.bps.toNat

/-- The advance of a sample step (R31, R192): count C, then F, to the next sample, or finish. -/
def advanceSample (s : State) : State :=
  if s.k.toNat + 1 < sampleCount s then
    if s.c.toNat + 1 < s.nch.toNat then s.toPayload (s.k + 1#48) s.f (s.c + 1#16)
    else s.toPayload (s.k + 1#48) (s.f + 1#32) 0#16
  else s.toPhase .done

/-- The end of H12 (R158): to the first sample, or to DONE when there is none. -/
def afterHeader (s : State) : State :=
  if 0 < sampleCount s then s.toPayload 0#48 0#32 0#16 else s.toPhase .done

/-- FLEN is admitted by OUT_CAP (20_memory.md R66). -/
def fitsCap : Option Nat → Nat → Bool
  | none, _ => true
  | some cap, flen => decide (flen ≤ cap)

/-- The register at a byte offset, for an aligned 32-bit access (10_state.md R26); none for every other
access (U9). -/
def regAt (offset size : Nat) : Option Reg :=
  if size = 4 then
    match offset with
    | 0x00 => some .ctrl
    | 0x04 => some .status
    | 0x08 => some .fmt
    | 0x0C => some .nch
    | 0x10 => some .nfr
    | 0x14 => some .srate
    | 0x18 => some .flenLo
    | 0x1C => some .flenHi
    | _ => none
  else none

end Sys2Proof.Machine
end

