-- ==== Sys2Proof/Machine/Commands.lean ====
section
/-! DEFINITION. The three commands of the table (40_commands.md). `ENC.I16` and `ENC.F32` are the CHECK
step with their selector in FMT (R122; START, which precedes it, is `startCommand`; the header and sample
steps that follow are operations of their own; log 1). `ACK` is R125. -/

namespace Sys2Proof.Machine

/-- The CHECK step on a recognised selector (R122): latch the layout, allocate OUT with no byte written,
`SEQ <- HEADER(0)`. A file larger than OUT_CAP is refused (20_memory.md R66, U7). -/
def checkStep (v : Variant) (s : State) : Outcome :=
  let l := Layout.of v s.nch s.nfr s.srate
  if fitsCap s.outCap l.flen.toNat then .next (((s.setLay l).setOut (some [])).toHeader 0#4)
  else .refused .outCapExceeded

/-- `ENC.I16` (R123): CHECK with WSEL = 0, AFMT = 1, BITS = 16, BPS = 2. -/
def execEncI16 (s : State) : Outcome := checkStep .int16 s

/-- `ENC.F32` (R124): CHECK with WSEL = 1, AFMT = 3, BITS = 32, BPS = 4. -/
def execEncF32 (s : State) : Outcome := checkStep .float32 s

/-- `ACK` (R125). -/
def execAck (s : State) : Outcome := .next (acknowledge s)

end Sys2Proof.Machine
end

