-- ==== Sys2Proof/Machine/Header.lean ====
section
/-! DEFINITION. The thirteen header steps (41_header_marshaller.md R146 to R158), one per row of the header
table R143: write the field at its offset, little-endian or as a tag, then `SEQ <- HEADER(HP + 1)`.
`MemWrite` stores the low bytes of the value, which is the truncation of R144. -/

namespace Sys2Proof.Machine

/-- `H0` ChunkID (R146). -/
def execH0 (s : State) : Outcome := memWriteTag s 0 .riff (·.toHeader 1#4)

/-- `H1` ChunkSize: `FLEN - 8`, low 32 bits (R147). -/
def execH1 (s : State) : Outcome := memWrite s 4 4 (s.lay.flen.toNat - 8) (·.toHeader 2#4)

/-- `H2` Format (R148). -/
def execH2 (s : State) : Outcome := memWriteTag s 8 .wave (·.toHeader 3#4)

/-- `H3` Subchunk1ID (R149). -/
def execH3 (s : State) : Outcome := memWriteTag s 12 .fmt (·.toHeader 4#4)

/-- `H4` Subchunk1Size: 16 (R150). -/
def execH4 (s : State) : Outcome := memWrite s 16 4 16 (·.toHeader 5#4)

/-- `H5` AudioFormat: AFMT (R151). -/
def execH5 (s : State) : Outcome := memWrite s 20 2 s.lay.afmt.toNat (·.toHeader 6#4)

/-- `H6` NumChannels: NCH (R152). -/
def execH6 (s : State) : Outcome := memWrite s 22 2 s.nch.toNat (·.toHeader 7#4)

/-- `H7` SampleRate: SRATE (R153). -/
def execH7 (s : State) : Outcome := memWrite s 24 4 s.srate.toNat (·.toHeader 8#4)

/-- `H8` ByteRate: BPSEC, low 32 bits (R154). -/
def execH8 (s : State) : Outcome := memWrite s 28 4 s.lay.bpsec.toNat (·.toHeader 9#4)

/-- `H9` BlockAlign: BPF, low 16 bits (R155). -/
def execH9 (s : State) : Outcome := memWrite s 32 2 s.lay.bpf.toNat (·.toHeader 10#4)

/-- `H10` BitsPerSample: BITS (R156). -/
def execH10 (s : State) : Outcome := memWrite s 34 2 s.lay.bits.toNat (·.toHeader 11#4)

/-- `H11` Subchunk2ID (R157). -/
def execH11 (s : State) : Outcome := memWriteTag s 36 .data (·.toHeader 12#4)

/-- `H12` Subchunk2Size: DLEN, low 32 bits; then the first sample, or DONE if there is none (R158). -/
def execH12 (s : State) : Outcome := memWrite s 40 4 s.lay.dlen.toNat afterHeader

end Sys2Proof.Machine
end

