-- ==== Sys2Proof/Machine/Quantizer.lean ====
section
/-! DEFINITION. The float-to-int16 quantizer with clipping (42_quantizer.md R170 to R182). Every finite
binary32 value is an integer number of units of 2^(-149), so the scaled sample `y = x × 32768` is an
integer number of units of 2^(-134): the scaling is exact (R172) and the only rounding is R173. -/

namespace Sys2Proof.Machine

/-- The sign bit s of a binary32 pattern (30_encoding.md R94). -/
def f32sign (w : Word) : Bool := w.getLsbD 31

/-- The biased exponent e, bits 30:23 (R94). -/
def f32exp (w : Word) : Nat := w.toNat / 2 ^ 23 % 2 ^ 8

/-- The fraction m, bits 22:0 (R94). -/
def f32frac (w : Word) : Nat := w.toNat % 2 ^ 23

/-- The magnitude of a finite pattern in units of 2^(-149) (R95): `m` if e = 0, else `(2^23 + m) × 2^(e-1)`. -/
def f32mag (w : Word) : Nat :=
  if f32exp w = 0 then f32frac w else (2 ^ 23 + f32frac w) * 2 ^ (f32exp w - 1)

/-- `round(|y|)` for `|y| = n / 2^134` (R173): half away from zero, or half to even. -/
def roundMag : Tie → Nat → Nat
  | .away, n => (n + 2 ^ 133) / 2 ^ 134
  | .even, n =>
    let q := n / 2 ^ 134
    let r := n % 2 ^ 134
    if r < 2 ^ 133 then q
    else if 2 ^ 133 < r then q + 1
    else if q % 2 = 0 then q
    else q + 1

/-- `clamp(r, -32768, 32767) = min(max(r, -32768), 32767)` (R174). -/
def clamp16 (r : Int) : Int := min (max r (-32768)) 32767

/-- `Q16(w)` (R178), for either tie rule and any code of NaN. -/
def q16 (tie : Tie) (nan : BitVec 16) (w : Word) : Int :=
  if f32exp w = 255 then
    if f32frac w = 0 then (if f32sign w then -32768 else 32767) else nan.toInt
  else
    let r : Int := roundMag tie (f32mag w)
    clamp16 (if f32sign w then -r else r)

/-- The 16-bit two's-complement pattern of a code, `q mod 2^16` (00_scope.md R7, 30_encoding.md R96). -/
def tc16 (q : Int) : BitVec 16 := BitVec.ofInt 16 q

end Sys2Proof.Machine
end

