-- ==== Sys2Proof/Machine/Image.lean ====
section
/-! DEFINITION. The file as one function of the operands: `Header` (41_header_marshaller.md R145),
`Sample` (43_payload_writers.md R196) and `Encode` (40_commands.md R120). The steps of the machine do not
use `header` and `encodeFile`; statements compare what the steps wrote with them. -/

namespace Sys2Proof.Machine

/-- `Sample(wsel, w)` for the Int16 writer: `le16(tc16(Q16(w)))` (R194, R196). -/
def sampleQ16 (w : Word) : List Byte := leBytes 2 (tc16 (q16 Config.tie Config.nanCode w)).toNat

/-- `Sample(wsel, w)` for the Float32 writer: `le32(w)`, all 32 bits unchanged (R195, R196). -/
def sampleF32 (w : Word) : List Byte := leBytes 4 w.toNat

/-- `Sample(wsel, w)` by variant (R196). -/
def sampleBytes : Variant → Word → List Byte
  | .int16 => sampleQ16
  | .float32 => sampleF32

/-- `Header(afmt, bits, nch, srate, bpsec, bpf, dlen, flen)`, 44 bytes (R145). `leBytes n` keeps the low
n bytes of its argument, which is the truncation `u16`, `u32` of R144. -/
def header (afmt bits nch srate bpsec bpf dlen flen : Nat) : List Byte :=
  tagBytes .riff ++ leBytes 4 (flen - 8) ++ tagBytes .wave ++ tagBytes .fmt ++ leBytes 4 16
    ++ leBytes 2 afmt ++ leBytes 2 nch ++ leBytes 4 srate ++ leBytes 4 bpsec
    ++ leBytes 2 bpf ++ leBytes 2 bits ++ tagBytes .data ++ leBytes 4 dlen

/-- `Encode(fmt, nch, nfr, srate, src)` (R120): none is `Error(UnsupportedFormat)`. -/
def encodeFile (fmt : BitVec 32) (nch nfr srate : Nat) (src : Nat → Nat → Word) : Option (List Byte) :=
  (variantOf fmt).map fun v =>
    let bps := v.bytes
    let bpf := nch * bps
    let dlen := nch * nfr * bps
    header v.audioFormat v.bits nch srate (srate * bpf) bpf dlen (44 + dlen)
      ++ (List.range nfr).flatMap fun f => (List.range nch).flatMap fun c => sampleBytes v (src c f)

end Sys2Proof.Machine
end

