-- ==== Sys2Proof/Machine/Payload.lean ====
section
/-! DEFINITION. The sample steps (43_payload_writers.md R192, R194, R195): read one sample at (C, F),
write it at WP with the writer of the operation, advance. -/

namespace Sys2Proof.Machine

/-- The sample step with a writer (R192). A location HOST did not supply has no value and the step is
refused (20_memory.md R63, U2, log 10). -/
def sampleStep (s : State) (writer : Word → List Byte) : Outcome :=
  match srcRead s s.c s.f with
  | none => .refused .sampleNotSupplied
  | some w => storeBytes s (samplePointer s) (writer w) advanceSample

/-- `SMP.Q16` (R194): quantize, write 2 bytes. -/
def execSmpQ16 (s : State) : Outcome := sampleStep s sampleQ16

/-- `SMP.F32` (R195): write the pattern's 4 bytes. -/
def execSmpF32 (s : State) : Outcome := sampleStep s sampleF32

end Sys2Proof.Machine
end

