-- ==== Sys2Proof/Machine/Dispatch.lean ====
section
/-! DEFINITION. The dispatch: one arm per constructor of Instr, one direct call of its meaning. -/

namespace Sys2Proof.Machine

def exec (i : Instr) (s : State) : Host.Outcome State Fault Refusal :=
  match i with
  | .encI16 => Sys2Proof.Machine.execEncI16 s
  | .encF32 => Sys2Proof.Machine.execEncF32 s
  | .ack => Sys2Proof.Machine.execAck s
  | .h0 => Sys2Proof.Machine.execH0 s
  | .h1 => Sys2Proof.Machine.execH1 s
  | .h2 => Sys2Proof.Machine.execH2 s
  | .h3 => Sys2Proof.Machine.execH3 s
  | .h4 => Sys2Proof.Machine.execH4 s
  | .h5 => Sys2Proof.Machine.execH5 s
  | .h6 => Sys2Proof.Machine.execH6 s
  | .h7 => Sys2Proof.Machine.execH7 s
  | .h8 => Sys2Proof.Machine.execH8 s
  | .h9 => Sys2Proof.Machine.execH9 s
  | .h10 => Sys2Proof.Machine.execH10 s
  | .h11 => Sys2Proof.Machine.execH11 s
  | .h12 => Sys2Proof.Machine.execH12 s
  | .smpQ16 => Sys2Proof.Machine.execSmpQ16 s
  | .smpF32 => Sys2Proof.Machine.execSmpF32 s

end Sys2Proof.Machine
end

