-- ==== Sys2Proof/Machine/Flags.lean ====
section
/-! DEFINITION. The flags (10_state.md R35): STATUS.BUSY, DONE, ERR and the field ECODE, all of them
functions of PHASE (R28). There are no arithmetic flags: clipping and NaN set nothing. -/

namespace Sys2Proof.Machine

/-- STATUS bit 0 (R28). -/
def busyFlag : Phase → Bool
  | .check | .header | .payload => true
  | .idle | .done | .error => false

/-- STATUS bit 1 (R28). -/
def doneFlag : Phase → Bool
  | .done => true
  | .idle | .check | .header | .payload | .error => false

/-- STATUS bit 2 (R28). -/
def errFlag : Phase → Bool
  | .error => true
  | .idle | .check | .header | .payload | .done => false

/-- STATUS bits 15:8: 1 is the code of `UnsupportedFormat` (60_exceptions.md R211), 0 no error. -/
def errorCode : Phase → BitVec 8
  | .error => 1#8
  | .idle | .check | .header | .payload | .done => 0#8

/-- The STATUS word (R26): ECODE in bits 15:8, ERR, DONE, BUSY in bits 2:0, reserved bits 0. -/
def statusWord (p : Phase) : Word :=
  0#16 ++ errorCode p ++ 0#5 ++ BitVec.ofBool (errFlag p) ++ BitVec.ofBool (doneFlag p) ++ BitVec.ofBool (busyFlag p)

end Sys2Proof.Machine
end

