-- ==== Sys2Proof/Machine/HostPort.lean ====
section
/-! DEFINITION. HOST's actions other than the commands of CTRL (40_commands.md R127, R128): register
writes and reads (10_state.md R25, R26, R29), reads of OUT (20_memory.md R72), changes of the sample data,
and the reset event (70_reset_and_hazards.md R230). -/

namespace Sys2Proof.Machine

/-- The word a register read returns (R26); reserved bits read 0, and CTRL reads 0 (R27). -/
def regValue (s : State) : Reg → Word
  | .ctrl => 0#32
  | .status => statusWord s.phase
  | .fmt => s.fmt
  | .nch => s.nch.setWidth 32
  | .nfr => s.nfr
  | .srate => s.srate
  | .flenLo => s.lay.flen.extractLsb' 0 32
  | .flenHi => (s.lay.flen.extractLsb' 32 18).setWidth 32

/-- A write of an operand register in IDLE (R25); reserved bits are ignored (R26). -/
def storeOperand (s : State) (v : Word) : Reg → State
  | .fmt => s.setFmt v
  | .nch => s.setNch (v.extractLsb' 0 16)
  | .nfr => s.setNfr v
  | .srate => s.setSrate v
  | .ctrl | .status | .flenLo | .flenHi => s

/-- A register write: the operand registers take it in IDLE only (R25); STATUS, FLEN_LO and FLEN_HI ignore
it (R26); CTRL stores nothing (R27; its commands are given where the word is decoded). -/
def regStore (s : State) (r : Reg) (v : Word) : State :=
  match s.phase with
  | .idle => storeOperand s v r
  | .check | .header | .payload | .done | .error => s

/-- HOST's read of n bytes of OUT from addr: in DONE and inside [0, FLEN) (R72); refused elsewhere (U5). -/
def readOut (s : State) (addr n : Nat) : Outcome :=
  match s.phase with
  | .done =>
    if addr + n ≤ s.lay.flen.toNat then
      match s.out.bind (fun m => Memory.readBytes m addr n) with
      | some bs => .next (s.setReply (some (.bytes bs)))
      | none => .fault .outUnwritten
    else .refused .outReadBeyond
  | .idle | .check | .header | .payload | .error => .refused .outNotReadable

/-- What HOST's action does (R127). -/
def hostAct (s : State) : HostAction → Outcome
  | .regWrite offset size v =>
    match regAt offset size with
    | some r => .next (regStore s r v)
    | none => .refused .badRegisterAccess
  | .regRead offset size =>
    match regAt offset size with
    | some r => .next (s.setReply (some (.word (regValue s r))))
    | none => .refused .badRegisterAccess
  | .outRead addr n => readOut s addr n
  | .sample c i w => .next (s.setSrc (srcChange s.src c i w))
  | .reset => .next (resetBlock s)

end Sys2Proof.Machine
end

