-- ==== Sys2Proof/Machine/Sequencer.lean ====
section
/-! DEFINITION. What is next (10_state.md R30, 30_encoding.md R90): whose turn it is, and the word that
selects the operation. The block fetches no instructions; SEQ is its program counter, and the word comes
from FMT, CTRL, HP or WSEL. -/

namespace Sys2Proof.Machine

/-- What the next step does. -/
inductive Fetched where
  /-- an operation word in a format (R90) -/
  | op (f : Format) (w : Word)
  /-- an action of HOST that is not a CTRL write -/
  | act (a : HostAction)
  /-- ENC's turn in IDLE, DONE or ERROR: no step to take (60_exceptions.md R225, log 4) -/
  | rest
  deriving DecidableEq, Repr

/-- ENC's next step, by SEQ (R30): FMT in CHECK, HP in HEADER, WSEL in PAYLOAD (R90). -/
def encNext (s : State) : Fetched :=
  match s.phase with
  | .idle | .done | .error => .rest
  | .check => .op .cmd s.fmt
  | .header => .op .hstep (s.hp.setWidth 32)
  | .payload => .op .wsel (s.lay.wsel.setWidth 32)

/-- HOST's next action; an aligned 32-bit write of CTRL is an operation word (R27, R92). -/
def hostNext : HostAction → Fetched
  | .regWrite offset size v => if regAt offset size = some .ctrl then .op .ctrl v else .act (.regWrite offset size v)
  | .regRead offset size => .act (.regRead offset size)
  | .outRead addr n => .act (.outRead addr n)
  | .sample c i w => .act (.sample c i w)
  | .reset => .act .reset

/-- What the next step does: the first event of the agenda, and ENC's turn when there is none (log 3). -/
def fetch (s : State) : Fetched :=
  match s.agenda with
  | [] => encNext s
  | .enc :: _ => encNext s
  | .host a :: _ => hostNext a

/-- The state with the event now happening taken off the agenda. -/
def taken (s : State) : State := s.setAgenda s.agenda.tail

/-- A word that is no operation of the table: an unrecognised selector raises the exception (R101, R213),
START is given (R121), CTRL = 0b00 and 0b11 do nothing (R27), a reserved HP selects nothing (R93, log 14). -/
def unlisted (u : Unlisted) (s : State) : Outcome :=
  match u with
  | .unknownSelector => .next (raiseUnsupportedFormat s)
  | .ctrlStart => .next (startCommand s)
  | .ctrlNone => .next s
  | .ctrlReserved => .next s
  | .headerStepReserved => .refused .reservedHeaderStep

/-- An encode in progress has a buffer with room for the header. -/
def headerReady (s : State) : Bool := s.out.isSome && decide (44 ≤ s.lay.flen.toNat)

/-- The next sample step has a buffer with room for n bytes at WP, and its sample is supplied. -/
def sampleReady (s : State) (n : Nat) : Bool :=
  s.out.isSome && decide (samplePointer s + n ≤ s.lay.flen.toNat) && (srcRead s s.c s.f).isSome

/-- Latch a variant's layout and allocate OUT, as CHECK does (R122). -/
def launched (s : State) (v : Variant) : State := (s.setLay (Layout.of v s.nch s.nfr s.srate)).setOut (some [])

/-- Stand a word where the next step finds it (log 18). A CMD word goes into FMT with SEQ = CHECK, a CTRL
word into a write of CTRL, an HSTEP word into HP, a WSEL word into WSEL. A header or sample step needs an
encode in progress; where there is none, one is launched (Int16 for a header step; one channel and one
frame, with the sample 0x00000000 if HOST supplied none, for a sample step). -/
def placeWord (s : State) (f : Format) (w : Word) : State :=
  match f with
  | .cmd => ((s.setFmt w).toPhase .check).setAgenda (.enc :: s.agenda)
  | .ctrl => s.setAgenda (.host (.regWrite 0x00 4 w) :: s.agenda)
  | .hstep =>
    let t := if headerReady s then s else launched s .int16
    (t.toHeader (w.setWidth 4)).setAgenda (.enc :: s.agenda)
  | .wsel =>
    let v : Variant := if w.setWidth 1 = 0#1 then .int16 else .float32
    let t :=
      if sampleReady s v.bytes then (s.setLay { s.lay with wsel := v.wsel }).toPhase .payload
      else
        let one := ((s.setNch 1#16).setNfr 1#32).toPayload 0#48 0#32 0#16
        let fed := if (srcRead one 0#16 0#32).isSome then one
          else one.setSrc (srcChange one.src 0#16 0#32 (some 0#32))
        launched fed v
    t.setAgenda (.enc :: s.agenda)

end Sys2Proof.Machine
end

