-- ==== Sys2Proof/Machine/Step.lean ====
section
/-! DEFINITION. One step of the machine: take the next event, find the word that selects the operation,
decode it and run it; HOST's other actions run as they are (00_scope.md R9, 10_state.md R30). -/

namespace Sys2Proof.Machine

/-- One step: HOST's next action, or one step of ENC. In IDLE, DONE and ERROR ENC's turn changes nothing
(log 4). -/
def step (s : State) : Host.Outcome State Fault Refusal :=
  match fetch s with
  | .rest => .next (taken s)
  | .act a => hostAct (taken s) a
  | .op f w =>
    match decode f w with
    | .ok i => exec i (taken s)
    | .error u => unlisted u (taken s)

/-- `s` with a table row's word standing where the next step finds it (logs 2, 18). -/
def State.withFetchWord (s : State) (nbits w : Nat) : State :=
  placeWord s (tableFormat nbits w) (BitVec.ofNat 32 w)

end Sys2Proof.Machine
end

