-- ==== Sys2Proof/Machine/Reference.lean ====
section
/-! DEFINITION. The spec's own forms of the quantizer, which the machine does not use and statements
compare it with: the value of a pattern as a rational (30_encoding.md R95), the definition R178 over the
rationals, and the bit-level form R179 of 42_quantizer.md. -/

namespace Sys2Proof.Machine

/-- `f32val(w)`, the real number a finite pattern denotes (R95). -/
def f32val (w : Word) : ℚ :=
  (if f32sign w then -1 else 1)
    * (if f32exp w = 0 then (f32frac w : ℚ) * (2 : ℚ) ^ (-149 : ℤ)
       else ((2 ^ 23 + f32frac w : ℕ) : ℚ) * (2 : ℚ) ^ ((f32exp w : ℤ) - 150))

/-- `round_TIE(y)` on a rational (R173): `sign(y) × floor(|y| + 1/2)`, or the nearest integer with the
even neighbour on a tie. -/
def roundRat : Tie → ℚ → ℤ
  | .away, y => if y < 0 then -⌊-y + 1 / 2⌋ else ⌊y + 1 / 2⌋
  | .even, y =>
    if y - ⌊y⌋ < 1 / 2 then ⌊y⌋
    else if 1 / 2 < y - ⌊y⌋ then ⌊y⌋ + 1
    else if ⌊y⌋ % 2 = 0 then ⌊y⌋
    else ⌊y⌋ + 1

/-- `Q16(w)` as R178 writes it. -/
def q16Rat (tie : Tie) (nan : BitVec 16) (w : Word) : ℤ :=
  if f32exp w = 255 ∧ f32frac w ≠ 0 then nan.toInt
  else if f32exp w = 255 then (if f32sign w then -32768 else 32767)
  else clamp16 (roundRat tie (f32val w * 32768))

/-- `Q16bits(w)`, the bit-level form for `TIE = away` (R179). -/
def q16Bits (nan : BitVec 16) (w : Word) : ℤ :=
  let e := f32exp w
  let m := f32frac w
  if e = 255 ∧ m ≠ 0 then nan.toInt
  else if 127 ≤ e then (if f32sign w then -32768 else 32767)
  else if e ≤ 110 then 0
  else
    let sh := 135 - e
    let mag := ((2 ^ 23 + m) + 2 ^ (sh - 1)) >>> sh
    if f32sign w then -(mag : ℤ) else min (mag : ℤ) 32767

/-- `Fits(fmt, nch, nfr, srate)` for a variant: no header field is truncated (41_header_marshaller.md R160). -/
def Fits (v : Variant) (nch nfr srate : Nat) : Prop :=
  nch * v.bytes < 2 ^ 16 ∧ srate * nch * v.bytes < 2 ^ 32 ∧ 36 + nch * nfr * v.bytes < 2 ^ 32

end Sys2Proof.Machine
end

