-- ==== Sys2Proof/Safety.lean ====
section
/-! DEFINITION. The terms claims use: reads of OUT, whose turn it is, the invariant of the block
(10_state.md R30 to R33, R41), what a stable encode has written so far (40_commands.md R120), and what
counts as a safe step. -/

namespace Sys2Proof.Machine

/-- The model's read of one byte of OUT; none where OUT is absent or the byte has not been written. -/
def outByte (s : State) (a : Nat) : Option Byte := s.out.bind fun m => Cells.get? m a

/-- `MemRead(addr, n)` of OUT: n bytes assembled little-endian (20_memory.md R70). -/
def outNum (s : State) (a n : Nat) : Option Nat := s.out.bind fun m => memRead m a n

/-- OUT is allocated and n bytes from `a` lie inside it. -/
def OutReady (s : State) (a n : Nat) : Prop := s.out.isSome ∧ a + n ≤ s.lay.flen.toNat

/-- From s to t exactly the bytes `bs` were written, at `a`; every other byte reads as before. -/
def WroteBytes (s t : State) (a : Nat) (bs : List Byte) : Prop :=
  (∀ i, i < bs.length → outByte t (a + i) = bs[i]?) ∧
    ∀ x, x < a ∨ a + bs.length ≤ x → outByte t x = outByte s x

/-- From s to t exactly the number v was written, in n bytes at `a`, little-endian; every other byte reads
as before. -/
def WroteNum (s t : State) (a n v : Nat) : Prop :=
  outNum t a n = some v ∧ ∀ x, x < a ∨ a + n ≤ x → outByte t x = outByte s x

/-- The eight latched values hold the writer select w, the AudioFormat code a, b bits and n bytes a sample,
and the products of R142 (10_state.md R33, 41_header_marshaller.md R142). -/
structure LayoutIs (l : Layout) (w a b n nch nfr srate : Nat) : Prop where
  wsel : l.wsel.toNat = w
  afmt : l.afmt.toNat = a
  bits : l.bits.toNat = b
  bps : l.bps.toNat = n
  bpf : l.bpf.toNat = nch * n
  bpsec : l.bpsec.toNat = srate * (nch * n)
  dlen : l.dlen.toNat = nch * nfr * n
  flen : l.flen.toNat = 44 + nch * nfr * n

/-- The header field of n bytes at offset `a` of a header image, read little-endian. -/
def headerField (h : List Byte) (a n : Nat) : Nat := leValue ((h.drop a).take n)

/-- It is ENC's turn: the agenda says so, or lists nothing more (log 3). -/
def EncTurn (s : State) : Prop := s.agenda = [] ∨ s.agenda.head? = some .enc

/-- HOST's action is next. -/
def HostTurn (s : State) (a : HostAction) : Prop := s.agenda.head? = some (.host a)

/-- HOST gives START next (40_commands.md R121, R106). -/
def startEvent : Event := .host (.regWrite 0x00 4 1#32)

/-- HOST gives ACK next (R125, R106). -/
def ackEvent : Event := .host (.regWrite 0x00 4 2#32)

/-- The block holds no encode: no layout, no buffer, counters 0 (10_state.md R45, R125). -/
structure AtRest (s : State) : Prop where
  lay : s.lay = Layout.zero
  out : s.out = none
  hp : s.hp = 0#4
  k : s.k = 0#48
  f : s.f = 0#32
  c : s.c = 0#16

/-- How many bytes of OUT an encode has written when it stands where SEQ says (R32, 20_memory.md R67). -/
def bytesWritten (s : State) : Nat :=
  match s.phase with
  | .header => headerOffset s.hp.toNat
  | .payload => samplePointer s
  | .done => s.lay.flen.toNat
  | .idle | .check | .error => 0

/-- `Header(AFMT, BITS, NCH, SRATE, BPSEC, BPF, DLEN, FLEN)` of the latched values (41_header_marshaller.md R145). -/
def headerImage (s : State) : List Byte :=
  header s.lay.afmt.toNat s.lay.bits.toNat s.nch.toNat s.srate.toNat s.lay.bpsec.toNat s.lay.bpf.toNat
    s.lay.dlen.toNat s.lay.flen.toNat

/-- An encode holds the block: the layout is the one CHECK computes from the operand registers (R33),
OUT_CAP admits it, exactly the first `bytesWritten` bytes of OUT are written (R67), and the header bytes
among them are those of the header table (R145). -/
structure Live (s : State) : Prop where
  layout : ∃ v, variantOf s.fmt = some v ∧ s.lay = Layout.of v s.nch s.nfr s.srate
  room : fitsCap s.outCap s.lay.flen.toNat = true
  buffer : ∃ m, s.out = some m ∧ Memory.wf m ∧ ∀ a, (Cells.get? m a).isSome ↔ a < bytesWritten s
  headerBytes : ∀ a, a < bytesWritten s → a < 44 → outByte s a = (headerImage s)[a]?

/-- In PAYLOAD(K): K < N, and K = F × NCH + C with C < NCH (R30, R31). -/
structure Counting (s : State) : Prop where
  count : s.k.toNat < sampleCount s
  split : s.k.toNat = s.f.toNat * s.nch.toNat + s.c.toNat
  channel : s.c.toNat < s.nch.toNat

/-- What holds in each phase. -/
def PhaseInv (s : State) : Prop :=
  match s.phase with
  | .idle | .check | .error => AtRest s
  | .header => s.hp.toNat ≤ 12 ∧ Live s
  | .payload => Counting s ∧ Live s
  | .done => Live s

/-- The invariant of the machine: HOST's sample data is in canonical form, and the phase's own facts hold. -/
structure Inv (s : State) : Prop where
  src : Cells.wf s.src
  phase : PhaseInv s

/-- SRC as the function of R120; 0 at a location HOST has not supplied. -/
def sampleOf (s : State) (c f : Nat) : Word :=
  (srcRead s (BitVec.ofNat 16 c) (BitVec.ofNat 32 f)).getD 0#32

/-- HOST has supplied the whole rectangle [0, NCH) × [0, NFR) (20_memory.md R63, 70_reset_and_hazards.md R233). -/
def SrcCovers (s : State) : Prop :=
  ∀ c f, c < s.nch.toNat → f < s.nfr.toNat → (srcRead s (BitVec.ofNat 16 c) (BitVec.ofNat 32 f)).isSome

/-- `Encode(FMT, NCH, NFR, SRATE, SRC)` of the operands and samples that stand now (R120); empty for an
unrecognised selector. -/
def fileImage (s : State) : List Byte :=
  (encodeFile s.fmt s.nch.toNat s.nfr.toNat s.srate.toNat (sampleOf s)).getD []

/-- Every byte of OUT written so far is the byte `Encode` has there. -/
def FilePrefix (s : State) : Prop := ∀ a, a < bytesWritten s → outByte s a = (fileImage s)[a]?

/-- ENC's steps still to come in this encode (R126): CHECK, thirteen header steps, N sample steps. -/
def stepsLeft (s : State) : Nat :=
  match s.phase with
  | .check => if (variantOf s.fmt).isSome then 14 + sampleCount s else 1
  | .header => 13 - s.hp.toNat + sampleCount s
  | .payload => sampleCount s - s.k.toNat
  | .idle | .done | .error => 0

/-- A safe step: no fault, and no header step that selects nothing. -/
def SafeStep (s : State) : Prop :=
  (∀ r, step s ≠ .fault r) ∧ step s ≠ .refused .reservedHeaderStep

end Sys2Proof.Machine
end

