-- ==== Sys2Proof/Certificates/Slice0/Obligations.lean ====
section
/-! DEFINITION. The statements for the provers, grouped as the spec's files are: encodings, registers and
host actions, commands and the error, header, quantizer, payload, and the whole machine. -/

open Sys2Proof Sys2Proof.Machine

/-! Encodings (30_encoding.md). -/

/-- Words written out from R91, R92, R93 and R102 decode to the operations they stand for; the words that
are no operation are rejected by name. -/
def Obligations.SpecWordsDecode : Prop :=
  decode .cmd 0x00000001#32 = .ok .encI16 ∧ decode .cmd 0x00000003#32 = .ok .encF32 ∧
  decode .cmd 0x00010001#32 = .error .unknownSelector ∧ decode .cmd 0x00000000#32 = .error .unknownSelector ∧
  decode .ctrl 0b10#32 = .ok .ack ∧ decode .ctrl 0xFFFFFFFE#32 = .ok .ack ∧
  decode .ctrl 0xFFFFFFFD#32 = .error .ctrlStart ∧ decode .ctrl 0b11#32 = .error .ctrlReserved ∧
  decode .hstep 0b0000#32 = .ok .h0 ∧ decode .hstep 0b0111#32 = .ok .h7 ∧ decode .hstep 0b1100#32 = .ok .h12 ∧
  decode .hstep 0b1101#32 = .error .headerStepReserved ∧
  decode .wsel 0#32 = .ok .smpQ16 ∧ decode .wsel 1#32 = .ok .smpF32

/-- In each format the decoder gives exactly the row whose masked bits equal its match word, for every
32-bit word (R100 and spec/opcode_table.json). -/
def Obligations.DecodeAgreesWithMatchAndMask : Prop :=
  ∀ (f : Format) (w : Word) (i : Instr), decode f w = .ok i ↔ i.format = f ∧ w &&& f.mask = encode i

/-- Every well-formed operation is decoded back from its word. -/
def Obligations.EncodedOperationDecodesBack : Prop :=
  ∀ i : Instr, i.wf = true → decode i.format (encode i) = .ok i

/-! Registers and HOST's actions (10_state.md, 20_memory.md, 40_commands.md). -/

/-- A step runs the operation decoded from FMT in CHECK, from HP in HEADER, from WSEL in PAYLOAD, or from
the word HOST writes to CTRL, at the state with the event taken off the agenda (R90; that events come from
`agenda` is the model's choice, log 3). In IDLE, DONE and ERROR ENC's turn changes nothing (log 4). -/
def Obligations.StepRunsDecodedOperation : Prop :=
  ∀ (s : State) (i : Instr),
    (EncTurn s → s.phase = .check → decode .cmd s.fmt = .ok i →
      step s = exec i { s with agenda := s.agenda.tail }) ∧
    (EncTurn s → s.phase = .header → decode .hstep (s.hp.setWidth 32) = .ok i →
      step s = exec i { s with agenda := s.agenda.tail }) ∧
    (EncTurn s → s.phase = .payload → decode .wsel (s.lay.wsel.setWidth 32) = .ok i →
      step s = exec i { s with agenda := s.agenda.tail }) ∧
    (∀ w, HostTurn s (.regWrite 0x00 4 w) → decode .ctrl w = .ok i →
      step s = exec i { s with agenda := s.agenda.tail }) ∧
    (EncTurn s → s.phase = .idle ∨ s.phase = .done ∨ s.phase = .error →
      step s = .next { s with agenda := s.agenda.tail })

/-- CTRL (R27, R121): bit 0 alone is START, which takes effect in IDLE only; bit 1 alone is ACK; both bits
0 and both bits 1 do nothing; the other bits are ignored; a read returns 0. -/
def Obligations.CtrlWriteGivesCommands : Prop :=
  ∀ (s : State) (w : Word),
    (HostTurn s (.regWrite 0x00 4 w) → w.getLsbD 0 = true → w.getLsbD 1 = false →
      (s.phase = .idle → step s = .next { s with phase := .check, agenda := s.agenda.tail }) ∧
      (s.phase ≠ .idle → step s = .next { s with agenda := s.agenda.tail })) ∧
    (HostTurn s (.regWrite 0x00 4 w) → w.getLsbD 0 = false → w.getLsbD 1 = true →
      step s = exec .ack { s with agenda := s.agenda.tail }) ∧
    (HostTurn s (.regWrite 0x00 4 w) → w.getLsbD 0 = w.getLsbD 1 →
      step s = .next { s with agenda := s.agenda.tail }) ∧
    (HostTurn s (.regRead 0x00 4) →
      step s = .next { s with agenda := s.agenda.tail, reply := some (.word 0#32) })

/-- STATUS is a function of PHASE (R28): a read returns the word of the phase and changes nothing but what
HOST was told; its fields are the flags; at most one flag is 1; the reset word is 0. -/
def Obligations.StatusShowsPhase : Prop :=
  (∀ s : State, HostTurn s (.regRead 0x04 4) →
    step s = .next { s with
      agenda := s.agenda.tail
      reply := some (.word (match s.phase with
        | .idle => 0x00000000#32
        | .check | .header | .payload => 0x00000001#32
        | .done => 0x00000002#32
        | .error => 0x00000104#32)) }) ∧
  (∀ p : Phase, (statusWord p).getLsbD 0 = busyFlag p ∧ (statusWord p).getLsbD 1 = doneFlag p ∧
    (statusWord p).getLsbD 2 = errFlag p ∧ (statusWord p).extractLsb' 8 8 = errorCode p ∧
    ¬(busyFlag p = true ∧ doneFlag p = true) ∧ ¬(busyFlag p = true ∧ errFlag p = true) ∧
    ¬(doneFlag p = true ∧ errFlag p = true)) ∧
  statusWord State.reset.phase = 0x00000000#32

/-- Operand registers (R25): a write is stored in IDLE and ignored in every other phase; a read returns the
value in every phase and changes nothing but what HOST was told. NCH takes bits 15:0 and reads back zero
extended (R26). -/
def Obligations.OperandRegistersLockOutsideIdle : Prop :=
  ∀ (s : State) (v : Word),
    (s.phase = .idle →
      (HostTurn s (.regWrite 0x08 4 v) → step s = .next { s with fmt := v, agenda := s.agenda.tail }) ∧
      (HostTurn s (.regWrite 0x0C 4 v) →
        step s = .next { s with nch := BitVec.ofNat 16 v.toNat, agenda := s.agenda.tail }) ∧
      (HostTurn s (.regWrite 0x10 4 v) → step s = .next { s with nfr := v, agenda := s.agenda.tail }) ∧
      (HostTurn s (.regWrite 0x14 4 v) → step s = .next { s with srate := v, agenda := s.agenda.tail })) ∧
    (s.phase ≠ .idle → ∀ offset, offset = 0x08 ∨ offset = 0x0C ∨ offset = 0x10 ∨ offset = 0x14 →
      HostTurn s (.regWrite offset 4 v) → step s = .next { s with agenda := s.agenda.tail }) ∧
    (HostTurn s (.regRead 0x08 4) →
      step s = .next { s with agenda := s.agenda.tail, reply := some (.word s.fmt) }) ∧
    (HostTurn s (.regRead 0x0C 4) →
      step s = .next { s with agenda := s.agenda.tail, reply := some (.word (BitVec.ofNat 32 s.nch.toNat)) }) ∧
    (HostTurn s (.regRead 0x10 4) →
      step s = .next { s with agenda := s.agenda.tail, reply := some (.word s.nfr) }) ∧
    (HostTurn s (.regRead 0x14 4) →
      step s = .next { s with agenda := s.agenda.tail, reply := some (.word s.srate) })

/-- Writes of STATUS, FLEN_LO and FLEN_HI are ignored in every phase (R26). -/
def Obligations.ReadOnlyRegistersIgnoreWrites : Prop :=
  ∀ (s : State) (v : Word) (offset : Nat), offset = 0x04 ∨ offset = 0x18 ∨ offset = 0x1C →
    HostTurn s (.regWrite offset 4 v) → step s = .next { s with agenda := s.agenda.tail }

/-- FLEN_LO and FLEN_HI show FLEN (R29): the low 32 bits and the rest, reserved bits 0; they show 0 after
reset, after ACK and in ERROR. -/
def Obligations.FileLengthRegistersShowFlen : Prop :=
  (∀ s : State, HostTurn s (.regRead 0x18 4) → ∃ lo : Word,
    step s = .next { s with agenda := s.agenda.tail, reply := some (.word lo) } ∧
      lo.toNat = s.lay.flen.toNat % 2 ^ 32) ∧
  (∀ s : State, HostTurn s (.regRead 0x1C 4) → ∃ hi : Word,
    step s = .next { s with agenda := s.agenda.tail, reply := some (.word hi) } ∧
      hi.toNat = s.lay.flen.toNat / 2 ^ 32) ∧
  State.reset.lay.flen = 0#50 ∧
  (∀ s t : State, s.phase = .done ∨ s.phase = .error → exec .ack s = .next t → t.lay.flen = 0#50) ∧
  (∀ s : State, Inv s → s.phase = .error → s.lay.flen = 0#50)

/-- A register access that is not one aligned 32-bit word at a listed offset is refused, by name; every
access that is one answers a next state (R26, U9). -/
def Obligations.RegisterAccessIsAlignedWord : Prop :=
  ∀ (s : State) (offset size : Nat) (v : Word),
    (¬(size = 4 ∧ offset % 4 = 0 ∧ offset ≤ 0x1C) →
      (HostTurn s (.regWrite offset size v) → step s = .refused .badRegisterAccess) ∧
      (HostTurn s (.regRead offset size) → step s = .refused .badRegisterAccess)) ∧
    (size = 4 ∧ offset % 4 = 0 ∧ offset ≤ 0x1C →
      (HostTurn s (.regWrite offset size v) → ∃ t, step s = .next t) ∧
      (HostTurn s (.regRead offset size) → ∃ t, step s = .next t))

/-- HOST reads OUT in DONE only, inside [0, FLEN) only (R72, U5). There the read returns n written bytes
and changes nothing but what HOST was told. The invariant rules out states no run reaches. -/
def Obligations.OutIsReadableOnlyInDone : Prop :=
  ∀ (s : State) (addr n : Nat), HostTurn s (.outRead addr n) →
    (s.phase ≠ .done → step s = .refused .outNotReadable) ∧
    (s.phase = .done → s.lay.flen.toNat < addr + n → step s = .refused .outReadBeyond) ∧
    (Inv s → s.phase = .done → addr + n ≤ s.lay.flen.toNat →
      ∃ bs : List Byte, step s = .next { s with agenda := s.agenda.tail, reply := some (.bytes bs) } ∧
        bs.length = n ∧ ∀ i, i < n → (outByte s (addr + i)).isSome ∧ bs[i]? = outByte s (addr + i))

/-- A number read back little-endian from where it was written is the number, reduced to its bytes (R70);
the write leaves every other address alone and keeps the memory's canonical form. -/
def Obligations.MemReadAfterMemWrite : Prop :=
  ∀ (m : Memory) (addr n v : Nat), Memory.wf m →
    memRead (Memory.writeBytes m addr (leBytes n v)) addr n = some (v % 2 ^ (8 * n)) ∧
    (∀ a, a < addr ∨ addr + n ≤ a → Cells.get? (Memory.writeBytes m addr (leBytes n v)) a = Cells.get? m a) ∧
    Memory.wf (Memory.writeBytes m addr (leBytes n v))

/-- HOST changes one location of its sample data, in any phase: that location reads as HOST left it, every
other as before, and nothing of the block changes (R62, R127). The action's form is the model's choice
(log 10). In CHECK, HEADER and PAYLOAD R127 forbids the change (U3); that the model lets it through there,
with each later read returning what the location then holds, is the model's choice (log 11, unsafe). -/
def Obligations.SampleChangeIsLocal : Prop :=
  ∀ (s : State) (c : BitVec 16) (i : BitVec 32) (w : Option Word), HostTurn s (.sample c i w) →
    ∃ t, step s = .next t ∧ t = { s with agenda := s.agenda.tail, src := t.src } ∧ srcRead t c i = w ∧
      ∀ c' i', c' ≠ c ∨ i' ≠ i → srcRead t c' i' = srcRead s c' i'

/-- During an encode HOST's register writes are ignored, START and ACK among them (R127, R240). -/
def Obligations.BusyBlockIgnoresRegisterWrites : Prop :=
  ∀ (s : State) (offset : Nat) (v : Word),
    s.phase = .check ∨ s.phase = .header ∨ s.phase = .payload →
    offset % 4 = 0 → offset ≤ 0x1C → HostTurn s (.regWrite offset 4 v) →
    step s = .next { s with agenda := s.agenda.tail }

/-! Reset, commands and the error (40_commands.md, 60_exceptions.md, 70_reset_and_hazards.md). -/

/-- After reset every element of the block has the value of R45, and a START given straight after reset
raises `UnsupportedFormat`. -/
def Obligations.ResetStateIsIdleAndEmpty : Prop :=
  State.reset.fmt = 0#32 ∧ State.reset.nch = 0#16 ∧ State.reset.nfr = 0#32 ∧ State.reset.srate = 0#32 ∧
  State.reset.phase = .idle ∧ State.reset.hp = 0#4 ∧ State.reset.k = 0#48 ∧ State.reset.f = 0#32 ∧
  State.reset.c = 0#16 ∧ State.reset.lay.wsel = 0#1 ∧ State.reset.lay.afmt = 0#16 ∧ State.reset.lay.bits = 0#16 ∧
  State.reset.lay.bps = 0#3 ∧ State.reset.lay.bpf = 0#18 ∧ State.reset.lay.bpsec = 0#50 ∧
  State.reset.lay.dlen = 0#50 ∧ State.reset.lay.flen = 0#50 ∧ State.reset.out = none ∧
  regValue State.reset .status = 0#32 ∧ regValue State.reset .flenLo = 0#32 ∧ regValue State.reset .flenHi = 0#32 ∧
  Host.Core.run core 2 { State.reset with agenda := [startEvent] } = .next { State.reset with phase := .error }

/-- The reset event takes every element of the block to its reset value from any phase, STATUS and FLEN
read 0 then, and the sample data stays as it was (R230). That OUT_CAP, the rest of the agenda and the last
reply stay too is the model's inference (log 19). -/
def Obligations.ResetEventClearsTheBlock : Prop :=
  ∀ s : State, HostTurn s .reset →
    ∃ t, step s = .next t ∧
      t = { s with
        fmt := 0#32, nch := 0#16, nfr := 0#32, srate := 0#32
        phase := .idle, hp := 0#4, k := 0#48, f := 0#32, c := 0#16
        lay := { wsel := 0#1, afmt := 0#16, bits := 0#16, bps := 0#3, bpf := 0#18, bpsec := 0#50,
                 dlen := 0#50, flen := 0#50 }
        out := none, agenda := s.agenda.tail } ∧
      regValue t .status = 0x00000000#32 ∧ regValue t .flenLo = 0#32 ∧ regValue t .flenHi = 0#32

/-- CHECK on a recognised selector: the latched values are the constants of the variant and the exact products
(R140, R141, R142), OUT is allocated and HEADER(0) is next (R122, R66), nothing else changes. That the fresh
buffer is held as one in which no byte is written is the model's choice (log 9). A file OUT_CAP does not
admit is refused (R66, U7; that OUT_CAP is a field and the step a refusal is the model's choice, log 8). -/
def Obligations.CheckLatchesExactLayout : Prop :=
  ∀ s : State,
    (fitsCap s.outCap (44 + s.nch.toNat * s.nfr.toNat * 2) = true →
      ∃ t, exec .encI16 s = .next t ∧
        t = { s with lay := t.lay, out := some [], phase := .header, hp := 0#4 } ∧
        LayoutIs t.lay 0 1 16 2 s.nch.toNat s.nfr.toNat s.srate.toNat) ∧
    (fitsCap s.outCap (44 + s.nch.toNat * s.nfr.toNat * 4) = true →
      ∃ t, exec .encF32 s = .next t ∧
        t = { s with lay := t.lay, out := some [], phase := .header, hp := 0#4 } ∧
        LayoutIs t.lay 1 3 32 4 s.nch.toNat s.nfr.toNat s.srate.toNat) ∧
    (fitsCap s.outCap (44 + s.nch.toNat * s.nfr.toNat * 2) = false →
      exec .encI16 s = .refused .outCapExceeded) ∧
    (fitsCap s.outCap (44 + s.nch.toNat * s.nfr.toNat * 4) = false →
      exec .encF32 s = .refused .outCapExceeded)

/-- In CHECK an FMT other than 1 and 3 raises `UnsupportedFormat`, whatever the other operands are: SEQ is
ERROR, STATUS 0x104, and nothing else changes; in every state of a run OUT is absent and the latched values
are 0, before and after (R213). -/
def Obligations.UnsupportedFormatEntersError : Prop :=
  ∀ s : State, EncTurn s → s.phase = .check → s.fmt ≠ 1#32 → s.fmt ≠ 3#32 →
    ∃ t, step s = .next t ∧ t = { s with phase := .error, agenda := s.agenda.tail } ∧
      regValue t .status = 0x00000104#32 ∧
      (Inv s → t.out = none ∧
        t.lay = { wsel := 0#1, afmt := 0#16, bits := 0#16, bps := 0#3, bpf := 0#18, bpsec := 0#50,
                  dlen := 0#50, flen := 0#50 })

/-- The error is precise (R214): from IDLE, after START and the CHECK step, the state differs from the state
before START only in SEQ (and in the agenda, which is the model's, log 3). -/
def Obligations.UnsupportedFormatIsPrecise : Prop :=
  ∀ s : State, s.phase = .idle → s.agenda = [startEvent] → s.fmt ≠ 1#32 → s.fmt ≠ 3#32 →
    Host.Core.run core 2 s = .next { s with phase := .error, agenda := [] }

/-- ACK leaves ERROR, and a START with the same FMT raises the same error again (R217): three steps lead
back to the same state. -/
def Obligations.RetryRaisesTheSameError : Prop :=
  ∀ s : State, Inv s → s.phase = .error → s.fmt ≠ 1#32 → s.fmt ≠ 3#32 → s.agenda = [ackEvent, startEvent] →
    Host.Core.run core 3 s = .next { s with agenda := [] }

/-- ACK (R125): in DONE and ERROR OUT, the latched values and the counters are cleared, the block is IDLE,
STATUS is 0, and the operand registers keep their values; in every other phase nothing changes. -/
def Obligations.AckReleasesDoneAndError : Prop :=
  ∀ s : State,
    (s.phase = .done ∨ s.phase = .error →
      exec .ack s = .next { s with
        out := none
        lay := { wsel := 0#1, afmt := 0#16, bits := 0#16, bps := 0#3, bpf := 0#18, bpsec := 0#50,
                 dlen := 0#50, flen := 0#50 }
        hp := 0#4, k := 0#48, f := 0#32, c := 0#16, phase := .idle }) ∧
    (s.phase = .idle ∨ s.phase = .check ∨ s.phase = .header ∨ s.phase = .payload →
      exec .ack s = .next s) ∧
    statusWord .idle = 0x00000000#32

/-! The header (41_header_marshaller.md). -/

/-- H0, H2, H3, H11 write their tag at their offset and nothing else, and the next header step is next
(R146, R148, R149, R157). -/
def Obligations.HeaderTagSteps : Prop :=
  ∀ s : State,
    (OutReady s 0 4 → ∃ t, exec .h0 s = .next t ∧
      t = { s with phase := .header, hp := 1#4, out := t.out } ∧
      WroteBytes s t 0 [0x52#8, 0x49#8, 0x46#8, 0x46#8]) ∧
    (OutReady s 8 4 → ∃ t, exec .h2 s = .next t ∧
      t = { s with phase := .header, hp := 3#4, out := t.out } ∧
      WroteBytes s t 8 [0x57#8, 0x41#8, 0x56#8, 0x45#8]) ∧
    (OutReady s 12 4 → ∃ t, exec .h3 s = .next t ∧
      t = { s with phase := .header, hp := 4#4, out := t.out } ∧
      WroteBytes s t 12 [0x66#8, 0x6D#8, 0x74#8, 0x20#8]) ∧
    (OutReady s 36 4 → ∃ t, exec .h11 s = .next t ∧
      t = { s with phase := .header, hp := 12#4, out := t.out } ∧
      WroteBytes s t 36 [0x64#8, 0x61#8, 0x74#8, 0x61#8])

/-- H1, H4, H7, H8 write their 32-bit field, low 32 bits, and nothing else, and the next header step is next
(R147, R150, R153, R154, R144). H1's value is 36 + DLEN where FLEN = 44 + DLEN. -/
def Obligations.HeaderWordSteps : Prop :=
  ∀ s : State,
    (OutReady s 4 4 → ∃ t, exec .h1 s = .next t ∧
      t = { s with phase := .header, hp := 2#4, out := t.out } ∧
      WroteNum s t 4 4 ((s.lay.flen.toNat - 8) % 2 ^ 32) ∧
      (s.lay.flen.toNat = 44 + s.lay.dlen.toNat → WroteNum s t 4 4 ((36 + s.lay.dlen.toNat) % 2 ^ 32))) ∧
    (OutReady s 16 4 → ∃ t, exec .h4 s = .next t ∧
      t = { s with phase := .header, hp := 5#4, out := t.out } ∧ WroteNum s t 16 4 16) ∧
    (OutReady s 24 4 → ∃ t, exec .h7 s = .next t ∧
      t = { s with phase := .header, hp := 8#4, out := t.out } ∧ WroteNum s t 24 4 s.srate.toNat) ∧
    (OutReady s 28 4 → ∃ t, exec .h8 s = .next t ∧
      t = { s with phase := .header, hp := 9#4, out := t.out } ∧
      WroteNum s t 28 4 (s.lay.bpsec.toNat % 2 ^ 32))

/-- H5, H6, H9, H10 write their 16-bit field, low 16 bits, and nothing else, and the next header step is
next (R151, R152, R155, R156, R144). -/
def Obligations.HeaderHalfwordSteps : Prop :=
  ∀ s : State,
    (OutReady s 20 2 → ∃ t, exec .h5 s = .next t ∧
      t = { s with phase := .header, hp := 6#4, out := t.out } ∧ WroteNum s t 20 2 s.lay.afmt.toNat) ∧
    (OutReady s 22 2 → ∃ t, exec .h6 s = .next t ∧
      t = { s with phase := .header, hp := 7#4, out := t.out } ∧ WroteNum s t 22 2 s.nch.toNat) ∧
    (OutReady s 32 2 → ∃ t, exec .h9 s = .next t ∧
      t = { s with phase := .header, hp := 10#4, out := t.out } ∧
      WroteNum s t 32 2 (s.lay.bpf.toNat % 2 ^ 16)) ∧
    (OutReady s 34 2 → ∃ t, exec .h10 s = .next t ∧
      t = { s with phase := .header, hp := 11#4, out := t.out } ∧ WroteNum s t 34 2 s.lay.bits.toNat)

/-- H12 writes DLEN, low 32 bits, and nothing else; then PAYLOAD(0) with F = C = 0 if there is a sample, and
DONE if there is none (R158). That HP keeps its value in PAYLOAD, and HP, K, F and C theirs in DONE, is the
model's choice (log 5, unsafe). -/
def Obligations.LastHeaderStepEntersPayloadOrDone : Prop :=
  ∀ s : State, OutReady s 40 4 → ∃ t, exec .h12 s = .next t ∧
    WroteNum s t 40 4 (s.lay.dlen.toNat % 2 ^ 32) ∧
    (0 < s.nch.toNat * s.nfr.toNat →
      t = { s with phase := .payload, k := 0#48, f := 0#32, c := 0#16, out := t.out }) ∧
    (s.nch.toNat * s.nfr.toNat = 0 → t = { s with phase := .done, out := t.out })

/-- The thirteen header steps from HEADER(0), with nothing else on the agenda, leave `Header(…)` of the
latched values in OUT[0 … 43] (R145), and change no register but the sequencer. -/
def Obligations.HeaderStepsWriteTheHeader : Prop :=
  ∀ s : State, s.phase = .header → s.hp = 0#4 → s.agenda = [] → OutReady s 0 44 →
    ∃ t, Host.Core.run core 13 s = .next t ∧
      (∀ a, a < 44 → outByte t a =
        (header s.lay.afmt.toNat s.lay.bits.toNat s.nch.toNat s.srate.toNat s.lay.bpsec.toNat s.lay.bpf.toNat
          s.lay.dlen.toNat s.lay.flen.toNat)[a]?) ∧
      (∀ a, 44 ≤ a → outByte t a = outByte s a) ∧
      t.phase = (if 0 < s.nch.toNat * s.nfr.toNat then .payload else .done) ∧
      t = { s with phase := t.phase, hp := t.hp, k := t.k, f := t.f, c := t.c, out := t.out }

/-- Under `Fits` every header field holds exactly the value of the table and the relations of R161 hold
(R160, R161); without it the tags and five of the fields are still exact. -/
def Obligations.FitsMakesHeaderFieldsExact : Prop :=
  ∀ (v : Variant) (nch nfr srate : Nat), nch < 2 ^ 16 → srate < 2 ^ 32 →
    let h := header v.audioFormat v.bits nch srate (srate * (nch * v.bytes)) (nch * v.bytes)
      (nch * nfr * v.bytes) (44 + nch * nfr * v.bytes)
    (h.length = 44 ∧ h.take 4 = tagBytes .riff ∧ (h.drop 8).take 4 = tagBytes .wave ∧
      (h.drop 12).take 4 = tagBytes .fmt ∧ (h.drop 36).take 4 = tagBytes .data ∧
      headerField h 16 4 = 16 ∧ headerField h 22 2 = nch ∧ headerField h 24 4 = srate ∧
      headerField h 20 2 = v.audioFormat ∧ headerField h 34 2 = v.bits ∧
      ((headerField h 20 2 = 1 ∧ headerField h 34 2 = 16) ∨ (headerField h 20 2 = 3 ∧ headerField h 34 2 = 32))) ∧
    (Fits v nch nfr srate →
      headerField h 4 4 = 36 + nch * nfr * v.bytes ∧ headerField h 28 4 = srate * (nch * v.bytes) ∧
      headerField h 32 2 = nch * v.bytes ∧ headerField h 40 4 = nch * nfr * v.bytes ∧
      headerField h 4 4 = 36 + headerField h 40 4 ∧
      headerField h 28 4 = headerField h 24 4 * headerField h 32 2 ∧
      headerField h 32 2 = headerField h 22 2 * headerField h 34 2 / 8 ∧
      headerField h 40 4 = headerField h 32 2 * nfr)

/-! The quantizer (42_quantizer.md). -/

/-- The machine's quantizer is R178 over the rationals, for every pattern, either tie rule and every
NAN_CODE. -/
def Obligations.QuantizerIsTheRationalDefinition : Prop :=
  ∀ (tie : Tie) (nan : BitVec 16) (w : Word), q16 tie nan w = q16Rat tie nan w

/-- The bit-level form R179 equals the quantizer with TIE = away on every pattern. -/
def Obligations.BitLevelFormEqualsQuantizer : Prop :=
  ∀ (nan : BitVec 16) (w : Word), q16Bits nan w = q16 .away nan w

/-- On finite patterns, for either tie rule, the quantizer is monotonic (R180 (a)), and odd exactly when
|x| < 32767.5/32768 (R180 (d)). -/
def Obligations.QuantizerIsMonotoneAndOddBelowTheClip : Prop :=
  (∀ (tie : Tie) (nan : BitVec 16) (w₁ w₂ : Word), f32exp w₁ ≠ 255 → f32exp w₂ ≠ 255 →
    f32val w₁ ≤ f32val w₂ → q16 tie nan w₁ ≤ q16 tie nan w₂) ∧
  (∀ (tie : Tie) (nan : BitVec 16) (w : Word), f32exp w ≠ 255 →
    (q16 tie nan (w ^^^ 0x80000000#32) = -q16 tie nan w ↔ |f32val w| < 32767.5 / 32768))

/-- On finite patterns, for either tie rule: the two clips (R180 (c)), the error of at most half a code
below the clip (R180 (e)), and exactness on the codes themselves (R180 (f)). -/
def Obligations.QuantizerClipsAndIsNearest : Prop :=
  ∀ (tie : Tie) (nan : BitVec 16) (w : Word), f32exp w ≠ 255 →
    (32767.5 / 32768 ≤ f32val w → q16 tie nan w = 32767) ∧
    (f32val w ≤ -32767.5 / 32768 → q16 tie nan w = -32768) ∧
    (|f32val w| < 32767.5 / 32768 → |(q16 tie nan w : ℚ) - 32768 * f32val w| ≤ 1 / 2) ∧
    (∀ k : ℤ, -32768 ≤ k → k ≤ 32767 → f32val w = k / 32768 → q16 tie nan w = k)

/-- Infinities clamp (R175). -/
def Obligations.InfinitiesClamp : Prop :=
  ∀ (tie : Tie) (nan : BitVec 16),
    q16 tie nan 0x7F800000#32 = 32767 ∧ q16 tie nan 0xFF800000#32 = -32768

/-- Both zeros, and every pattern below 2^(-16) in magnitude, give 0, stored as 00 00; at 2^(-16) exactly the result is the
tie's: +1 and -1 for `away`, 0 for `even` (R177). -/
def Obligations.SmallSamplesQuantizeToZero : Prop :=
  (∀ (tie : Tie) (nan : BitVec 16) (w : Word), f32exp w ≠ 255 → |f32val w| < (2 : ℚ) ^ (-16 : ℤ) →
    q16 tie nan w = 0) ∧
  (∀ (tie : Tie) (nan : BitVec 16), q16 tie nan 0x00000000#32 = 0 ∧ q16 tie nan 0x80000000#32 = 0 ∧
    leBytes 2 (tc16 0).toNat = [0x00#8, 0x00#8]) ∧
  (∀ nan : BitVec 16, q16 .away nan 0x37800000#32 = 1 ∧ q16 .away nan 0xB7800000#32 = -1 ∧
    q16 .even nan 0x37800000#32 = 0 ∧ q16 .even nan 0xB7800000#32 = 0)

/-- The boundary patterns of R181: code and stored bytes for TIE = away, and for `even` the codes where the
table gives them. -/
def Obligations.BoundaryPatternTable : Prop :=
  ∀ nan : BitVec 16,
    let row := fun (w : Word) (q : Int) (lo hi : Byte) =>
      q16 .away nan w = q ∧ leBytes 2 (tc16 q).toNat = [lo, hi]
    row 0x3F800000#32 32767 0xFF#8 0x7F#8 ∧ row 0x3F7FFFFF#32 32767 0xFF#8 0x7F#8 ∧
    row 0x3F7FFF00#32 32767 0xFF#8 0x7F#8 ∧ row 0x3F7FFEFF#32 32767 0xFF#8 0x7F#8 ∧
    row 0x3F7FFE00#32 32767 0xFF#8 0x7F#8 ∧ row 0xBF7FFEFF#32 (-32767) 0x01#8 0x80#8 ∧
    row 0xBF7FFF00#32 (-32768) 0x00#8 0x80#8 ∧ row 0xBF800000#32 (-32768) 0x00#8 0x80#8 ∧
    row 0xBF800080#32 (-32768) 0x00#8 0x80#8 ∧ row 0xBF800001#32 (-32768) 0x00#8 0x80#8 ∧
    row 0x37800000#32 1 0x01#8 0x00#8 ∧ row 0xB7800000#32 (-1) 0xFF#8 0xFF#8 ∧
    row 0x377FFFFF#32 0 0x00#8 0x00#8 ∧ row 0x7F7FFFFF#32 32767 0xFF#8 0x7F#8 ∧
    row 0xFF7FFFFF#32 (-32768) 0x00#8 0x80#8 ∧
    q16 .even nan 0x3F7FFF00#32 = 32767 ∧ q16 .even nan 0xBF7FFF00#32 = -32768 ∧
    q16 .even nan 0xBF800080#32 = -32768 ∧ q16 .even nan 0x37800000#32 = 0 ∧ q16 .even nan 0xB7800000#32 = 0

/-! The payload (43_payload_writers.md). -/

/-- SMP.Q16 (R194, R192): the two's-complement code of the sample at (C, F) is written in 2 bytes at WP and
nothing else of OUT changes; then K, C and F advance, or the encode is DONE. That HP, K, F and C keep their
values in DONE is the model's choice (log 5, unsafe). A location HOST did not supply has no value (R63, U2);
that the step is refused there, and how the supplied samples are held, is log 10. -/
def Obligations.Int16SampleStep : Prop :=
  ∀ s : State,
    (∀ w, srcRead s s.c s.f = some w → OutReady s (44 + s.k.toNat * s.lay.bps.toNat) 2 →
      ∃ t, exec .smpQ16 s = .next t ∧
        WroteNum s t (44 + s.k.toNat * s.lay.bps.toNat) 2 (tc16 (q16 .away Config.nanCode w)).toNat ∧
        (s.k.toNat + 1 < s.nch.toNat * s.nfr.toNat → s.c.toNat + 1 < s.nch.toNat →
          t = { s with phase := .payload, k := s.k + 1#48, c := s.c + 1#16, out := t.out }) ∧
        (s.k.toNat + 1 < s.nch.toNat * s.nfr.toNat → ¬s.c.toNat + 1 < s.nch.toNat →
          t = { s with phase := .payload, k := s.k + 1#48, f := s.f + 1#32, c := 0#16, out := t.out }) ∧
        (¬s.k.toNat + 1 < s.nch.toNat * s.nfr.toNat → t = { s with phase := .done, out := t.out })) ∧
    (srcRead s s.c s.f = none → exec .smpQ16 s = .refused .sampleNotSupplied)

/-- SMP.F32 (R195, R192): all 32 bits of the sample at (C, F) are written in 4 bytes at WP and
nothing else of OUT changes; then K, C and F advance, or the encode is DONE. That HP, K, F and C keep their
values in DONE is the model's choice (log 5, unsafe). A location HOST did not supply has no value (R63, U2);
that the step is refused there, and how the supplied samples are held, is log 10. -/
def Obligations.Float32SampleStep : Prop :=
  ∀ s : State,
    (∀ w, srcRead s s.c s.f = some w → OutReady s (44 + s.k.toNat * s.lay.bps.toNat) 4 →
      ∃ t, exec .smpF32 s = .next t ∧
        WroteNum s t (44 + s.k.toNat * s.lay.bps.toNat) 4 w.toNat ∧
        (s.k.toNat + 1 < s.nch.toNat * s.nfr.toNat → s.c.toNat + 1 < s.nch.toNat →
          t = { s with phase := .payload, k := s.k + 1#48, c := s.c + 1#16, out := t.out }) ∧
        (s.k.toNat + 1 < s.nch.toNat * s.nfr.toNat → ¬s.c.toNat + 1 < s.nch.toNat →
          t = { s with phase := .payload, k := s.k + 1#48, f := s.f + 1#32, c := 0#16, out := t.out }) ∧
        (¬s.k.toNat + 1 < s.nch.toNat * s.nfr.toNat → t = { s with phase := .done, out := t.out })) ∧
    (srcRead s s.c s.f = none → exec .smpF32 s = .refused .sampleNotSupplied)

/-- A NaN sample is no error: SMP.Q16 writes NAN_CODE, whatever the NaN's sign and payload and whatever
NAN_CODE is, and the block goes on (R176). -/
def Obligations.NanSampleWritesNanCode : Prop :=
  ∀ (s : State) (w : Word), srcRead s s.c s.f = some w → f32exp w = 255 → f32frac w ≠ 0 →
    OutReady s (44 + s.k.toNat * s.lay.bps.toNat) 2 →
    ∃ t, exec .smpQ16 s = .next t ∧
      WroteNum s t (44 + s.k.toNat * s.lay.bps.toNat) 2 Config.nanCode.toNat ∧
      (t.phase = .payload ∨ t.phase = .done)

/-- After CHECK no step of ENC reads FMT (R34): with another value in FMT the step ends the same way, in
the same state but for FMT. -/
def Obligations.HeaderAndSampleStepsIgnoreFmt : Prop :=
  ∀ (s : State) (x : BitVec 32), EncTurn s → s.phase = .header ∨ s.phase = .payload →
    step { s with fmt := x } =
      match step s with
      | .next t => .next { t with fmt := x }
      | .fault r => .fault r
      | .refused r => .refused r

/-- A sample's bytes lie inside OUT, aligned to their size (R32, R71, R193), in every state of a run. -/
def Obligations.SamplePointerStaysInside : Prop :=
  ∀ s : State, Inv s → s.phase = .payload →
    samplePointer s + s.lay.bps.toNat ≤ s.lay.flen.toNat ∧ samplePointer s % s.lay.bps.toNat = 0 ∧
    samplePointer s = 44 + (s.f.toNat * s.nch.toNat + s.c.toNat) * s.lay.bps.toNat ∧
    s.f.toNat < s.nfr.toNat

/-- What a reader of the file finds (R199, R190): its length; the Float32 samples bit for bit and the Int16
codes, each at `44 + (f × NCH + c) × BPS`; and SRATE changes header bytes 24 … 31 only. -/
def Obligations.FileHoldsEverySample : Prop :=
  ∀ (fmt : BitVec 32) (v : Variant) (nch nfr srate srate' : Nat) (src : Nat → Nat → Word) (file file' : List Byte),
    variantOf fmt = some v → encodeFile fmt nch nfr srate src = some file →
    encodeFile fmt nch nfr srate' src = some file' →
    file.length = 44 + nch * nfr * v.bytes ∧
    (∀ c f, c < nch → f < nfr →
      headerField file (44 + (f * nch + c) * v.bytes) v.bytes =
        match v with
        | .int16 => (tc16 (q16 .away Config.nanCode (src c f))).toNat
        | .float32 => (src c f).toNat) ∧
    (∀ a, a < 24 ∨ 32 ≤ a → file[a]? = file'[a]?)

/-! The whole machine. -/

/-- The invariant holds after reset. -/
def Obligations.InvariantHoldsAtReset : Prop := Inv State.reset

/-- Every step keeps the invariant: the phase's own facts, the latched layout, exactly the bytes written so
far, the header bytes, the counters, and the canonical form of OUT and SRC (R30 to R33, R41, R67, R145). -/
def Obligations.EveryStepKeepsTheInvariant : Prop :=
  ∀ s t : State, Inv s → step s = .next t → Inv t

/-- From a state that meets the invariant no step faults, and no header step selects nothing: the block's
one error is a next state (R210). -/
def Obligations.NoStepFaults : Prop := ∀ s : State, Inv s → SafeStep s

/-- The transitions of SEQ are those of R30 and no others (reset apart, R231). -/
def Obligations.SequencerHasNoOtherTransition : Prop :=
  ∀ s t : State, Inv s → ¬HostTurn s .reset → step s = .next t →
    (t.phase = s.phase ∧ t.hp = s.hp ∧ t.k = s.k ∧ t.f = s.f ∧ t.c = s.c) ∨
    (s.phase = .idle ∧ t.phase = .check) ∨
    (s.phase = .check ∧ t.phase = .header ∧ t.hp = 0#4) ∨
    (s.phase = .check ∧ t.phase = .error) ∨
    (s.phase = .header ∧ s.hp.toNat < 12 ∧ t.phase = .header ∧ t.hp.toNat = s.hp.toNat + 1) ∨
    (s.phase = .header ∧ s.hp = 12#4 ∧ 0 < sampleCount s ∧ t.phase = .payload ∧ t.k = 0#48) ∨
    (s.phase = .header ∧ s.hp = 12#4 ∧ sampleCount s = 0 ∧ t.phase = .done) ∨
    (s.phase = .payload ∧ s.k.toNat + 1 < sampleCount s ∧ t.phase = .payload ∧ t.k.toNat = s.k.toNat + 1) ∨
    (s.phase = .payload ∧ s.k.toNat + 1 = sampleCount s ∧ t.phase = .done) ∨
    (s.phase = .done ∧ t.phase = .idle) ∨
    (s.phase = .error ∧ t.phase = .idle)

/-- Nothing an encode depends on changes under it (R25, R33, R81): outside IDLE no step but reset changes an
operand register, and in HEADER and PAYLOAD no step but reset changes a latched value. -/
def Obligations.EncodeOperandsAreLocked : Prop :=
  ∀ s t : State, ¬HostTurn s .reset → step s = .next t →
    (s.phase ≠ .idle → t.fmt = s.fmt ∧ t.nch = s.nch ∧ t.nfr = s.nfr ∧ t.srate = s.srate) ∧
    (s.phase = .header ∨ s.phase = .payload → t.lay = s.lay)

/-- A byte of OUT that has been written keeps its value until OUT is gone (R67, R68): no step writes an
address twice, and after DONE OUT is constant. -/
def Obligations.WrittenBytesNeverChange : Prop :=
  ∀ s t : State, Inv s → step s = .next t →
    (∀ a b, outByte s a = some b → outByte t a = some b ∨ t.out = none) ∧
    (s.phase = .done → t.out = s.out ∨ t.out = none ∧ t.phase = .idle)

/-- Progress (R126, R243): while the block is busy and it is ENC's turn, with the samples supplied and the
file admitted by OUT_CAP, the step answers a next state with exactly one step fewer to go; none are left
exactly in DONE and ERROR. -/
def Obligations.BusyBlockAlwaysFinishes : Prop :=
  ∀ s : State, Inv s → EncTurn s → SrcCovers s →
    s.phase = .check ∨ s.phase = .header ∨ s.phase = .payload →
    (∀ v, variantOf s.fmt = some v → fitsCap s.outCap (44 + s.nch.toNat * s.nfr.toNat * v.bytes) = true) →
    ∃ t, step s = .next t ∧ stepsLeft t + 1 = stepsLeft s ∧
      (stepsLeft t = 0 ↔ t.phase = .done ∨ t.phase = .error)

/-- Whatever HOST does short of changing sample data during an encode (R76), and however the two agents take
turns, the bytes written so far are those of `Encode` of the operands and samples (R120); so in DONE all of
OUT is. -/
def Obligations.StableEncodeWritesTheFile : Prop :=
  ∀ s t : State, Inv s → FilePrefix s → (s.phase ≠ .idle → ∀ c i w, ¬HostTurn s (.sample c i w)) →
    step s = .next t → FilePrefix t

/-- The encode as a whole (R120, R126): from IDLE with START on the agenda, the samples supplied and the
file admitted by OUT_CAP, START and then 1 + 13 + N steps of ENC reach DONE with OUT = `Encode(…)` and FLEN
its length; for an unrecognised selector START and one step reach ERROR with OUT absent. -/
def Obligations.EncodeReachesDoneWithTheFile : Prop :=
  ∀ s : State, s.phase = .idle → AtRest s → s.agenda = [startEvent] →
    (∀ file, encodeFile s.fmt s.nch.toNat s.nfr.toNat s.srate.toNat (sampleOf s) = some file →
      SrcCovers s → fitsCap s.outCap file.length = true →
      ∃ t, Host.Core.run core (1 + (1 + 13 + s.nch.toNat * s.nfr.toNat)) s = .next t ∧
        t.phase = .done ∧ t.lay.flen.toNat = file.length ∧ (∀ a, outByte t a = file[a]?) ∧
        t.fmt = s.fmt ∧ t.nch = s.nch ∧ t.nfr = s.nfr ∧ t.srate = s.srate ∧ t.src = s.src) ∧
    (encodeFile s.fmt s.nch.toNat s.nfr.toNat s.srate.toNat (sampleOf s) = none →
      ∃ t, Host.Core.run core (1 + 1) s = .next t ∧ t.phase = .error ∧ t.out = none)
end

