-- ==== Sys2Proof/Laws/State.lean ====
section
/-! SUPPORT. One lemma per field and update of State, so that no proof unfolds a record update. -/

namespace Sys2Proof.Machine.State

variable (s : State)

@[simp] theorem setFmt_fmt (v : BitVec 32) : (s.setFmt v).fmt = v := rfl
@[simp] theorem setFmt_nch (v : BitVec 32) : (s.setFmt v).nch = s.nch := rfl
@[simp] theorem setFmt_nfr (v : BitVec 32) : (s.setFmt v).nfr = s.nfr := rfl
@[simp] theorem setFmt_srate (v : BitVec 32) : (s.setFmt v).srate = s.srate := rfl
@[simp] theorem setFmt_phase (v : BitVec 32) : (s.setFmt v).phase = s.phase := rfl
@[simp] theorem setFmt_hp (v : BitVec 32) : (s.setFmt v).hp = s.hp := rfl
@[simp] theorem setFmt_k (v : BitVec 32) : (s.setFmt v).k = s.k := rfl
@[simp] theorem setFmt_f (v : BitVec 32) : (s.setFmt v).f = s.f := rfl
@[simp] theorem setFmt_c (v : BitVec 32) : (s.setFmt v).c = s.c := rfl
@[simp] theorem setFmt_lay (v : BitVec 32) : (s.setFmt v).lay = s.lay := rfl
@[simp] theorem setFmt_out (v : BitVec 32) : (s.setFmt v).out = s.out := rfl
@[simp] theorem setFmt_outCap (v : BitVec 32) : (s.setFmt v).outCap = s.outCap := rfl
@[simp] theorem setFmt_src (v : BitVec 32) : (s.setFmt v).src = s.src := rfl
@[simp] theorem setFmt_agenda (v : BitVec 32) : (s.setFmt v).agenda = s.agenda := rfl
@[simp] theorem setFmt_reply (v : BitVec 32) : (s.setFmt v).reply = s.reply := rfl

@[simp] theorem setNch_fmt (v : BitVec 16) : (s.setNch v).fmt = s.fmt := rfl
@[simp] theorem setNch_nch (v : BitVec 16) : (s.setNch v).nch = v := rfl
@[simp] theorem setNch_nfr (v : BitVec 16) : (s.setNch v).nfr = s.nfr := rfl
@[simp] theorem setNch_srate (v : BitVec 16) : (s.setNch v).srate = s.srate := rfl
@[simp] theorem setNch_phase (v : BitVec 16) : (s.setNch v).phase = s.phase := rfl
@[simp] theorem setNch_hp (v : BitVec 16) : (s.setNch v).hp = s.hp := rfl
@[simp] theorem setNch_k (v : BitVec 16) : (s.setNch v).k = s.k := rfl
@[simp] theorem setNch_f (v : BitVec 16) : (s.setNch v).f = s.f := rfl
@[simp] theorem setNch_c (v : BitVec 16) : (s.setNch v).c = s.c := rfl
@[simp] theorem setNch_lay (v : BitVec 16) : (s.setNch v).lay = s.lay := rfl
@[simp] theorem setNch_out (v : BitVec 16) : (s.setNch v).out = s.out := rfl
@[simp] theorem setNch_outCap (v : BitVec 16) : (s.setNch v).outCap = s.outCap := rfl
@[simp] theorem setNch_src (v : BitVec 16) : (s.setNch v).src = s.src := rfl
@[simp] theorem setNch_agenda (v : BitVec 16) : (s.setNch v).agenda = s.agenda := rfl
@[simp] theorem setNch_reply (v : BitVec 16) : (s.setNch v).reply = s.reply := rfl

@[simp] theorem setNfr_fmt (v : BitVec 32) : (s.setNfr v).fmt = s.fmt := rfl
@[simp] theorem setNfr_nch (v : BitVec 32) : (s.setNfr v).nch = s.nch := rfl
@[simp] theorem setNfr_nfr (v : BitVec 32) : (s.setNfr v).nfr = v := rfl
@[simp] theorem setNfr_srate (v : BitVec 32) : (s.setNfr v).srate = s.srate := rfl
@[simp] theorem setNfr_phase (v : BitVec 32) : (s.setNfr v).phase = s.phase := rfl
@[simp] theorem setNfr_hp (v : BitVec 32) : (s.setNfr v).hp = s.hp := rfl
@[simp] theorem setNfr_k (v : BitVec 32) : (s.setNfr v).k = s.k := rfl
@[simp] theorem setNfr_f (v : BitVec 32) : (s.setNfr v).f = s.f := rfl
@[simp] theorem setNfr_c (v : BitVec 32) : (s.setNfr v).c = s.c := rfl
@[simp] theorem setNfr_lay (v : BitVec 32) : (s.setNfr v).lay = s.lay := rfl
@[simp] theorem setNfr_out (v : BitVec 32) : (s.setNfr v).out = s.out := rfl
@[simp] theorem setNfr_outCap (v : BitVec 32) : (s.setNfr v).outCap = s.outCap := rfl
@[simp] theorem setNfr_src (v : BitVec 32) : (s.setNfr v).src = s.src := rfl
@[simp] theorem setNfr_agenda (v : BitVec 32) : (s.setNfr v).agenda = s.agenda := rfl
@[simp] theorem setNfr_reply (v : BitVec 32) : (s.setNfr v).reply = s.reply := rfl

@[simp] theorem setSrate_fmt (v : BitVec 32) : (s.setSrate v).fmt = s.fmt := rfl
@[simp] theorem setSrate_nch (v : BitVec 32) : (s.setSrate v).nch = s.nch := rfl
@[simp] theorem setSrate_nfr (v : BitVec 32) : (s.setSrate v).nfr = s.nfr := rfl
@[simp] theorem setSrate_srate (v : BitVec 32) : (s.setSrate v).srate = v := rfl
@[simp] theorem setSrate_phase (v : BitVec 32) : (s.setSrate v).phase = s.phase := rfl
@[simp] theorem setSrate_hp (v : BitVec 32) : (s.setSrate v).hp = s.hp := rfl
@[simp] theorem setSrate_k (v : BitVec 32) : (s.setSrate v).k = s.k := rfl
@[simp] theorem setSrate_f (v : BitVec 32) : (s.setSrate v).f = s.f := rfl
@[simp] theorem setSrate_c (v : BitVec 32) : (s.setSrate v).c = s.c := rfl
@[simp] theorem setSrate_lay (v : BitVec 32) : (s.setSrate v).lay = s.lay := rfl
@[simp] theorem setSrate_out (v : BitVec 32) : (s.setSrate v).out = s.out := rfl
@[simp] theorem setSrate_outCap (v : BitVec 32) : (s.setSrate v).outCap = s.outCap := rfl
@[simp] theorem setSrate_src (v : BitVec 32) : (s.setSrate v).src = s.src := rfl
@[simp] theorem setSrate_agenda (v : BitVec 32) : (s.setSrate v).agenda = s.agenda := rfl
@[simp] theorem setSrate_reply (v : BitVec 32) : (s.setSrate v).reply = s.reply := rfl

@[simp] theorem toPhase_fmt (p : Phase) : (s.toPhase p).fmt = s.fmt := rfl
@[simp] theorem toPhase_nch (p : Phase) : (s.toPhase p).nch = s.nch := rfl
@[simp] theorem toPhase_nfr (p : Phase) : (s.toPhase p).nfr = s.nfr := rfl
@[simp] theorem toPhase_srate (p : Phase) : (s.toPhase p).srate = s.srate := rfl
@[simp] theorem toPhase_phase (p : Phase) : (s.toPhase p).phase = p := rfl
@[simp] theorem toPhase_hp (p : Phase) : (s.toPhase p).hp = s.hp := rfl
@[simp] theorem toPhase_k (p : Phase) : (s.toPhase p).k = s.k := rfl
@[simp] theorem toPhase_f (p : Phase) : (s.toPhase p).f = s.f := rfl
@[simp] theorem toPhase_c (p : Phase) : (s.toPhase p).c = s.c := rfl
@[simp] theorem toPhase_lay (p : Phase) : (s.toPhase p).lay = s.lay := rfl
@[simp] theorem toPhase_out (p : Phase) : (s.toPhase p).out = s.out := rfl
@[simp] theorem toPhase_outCap (p : Phase) : (s.toPhase p).outCap = s.outCap := rfl
@[simp] theorem toPhase_src (p : Phase) : (s.toPhase p).src = s.src := rfl
@[simp] theorem toPhase_agenda (p : Phase) : (s.toPhase p).agenda = s.agenda := rfl
@[simp] theorem toPhase_reply (p : Phase) : (s.toPhase p).reply = s.reply := rfl

@[simp] theorem toHeader_fmt (h : BitVec 4) : (s.toHeader h).fmt = s.fmt := rfl
@[simp] theorem toHeader_nch (h : BitVec 4) : (s.toHeader h).nch = s.nch := rfl
@[simp] theorem toHeader_nfr (h : BitVec 4) : (s.toHeader h).nfr = s.nfr := rfl
@[simp] theorem toHeader_srate (h : BitVec 4) : (s.toHeader h).srate = s.srate := rfl
@[simp] theorem toHeader_phase (h : BitVec 4) : (s.toHeader h).phase = .header := rfl
@[simp] theorem toHeader_hp (h : BitVec 4) : (s.toHeader h).hp = h := rfl
@[simp] theorem toHeader_k (h : BitVec 4) : (s.toHeader h).k = s.k := rfl
@[simp] theorem toHeader_f (h : BitVec 4) : (s.toHeader h).f = s.f := rfl
@[simp] theorem toHeader_c (h : BitVec 4) : (s.toHeader h).c = s.c := rfl
@[simp] theorem toHeader_lay (h : BitVec 4) : (s.toHeader h).lay = s.lay := rfl
@[simp] theorem toHeader_out (h : BitVec 4) : (s.toHeader h).out = s.out := rfl
@[simp] theorem toHeader_outCap (h : BitVec 4) : (s.toHeader h).outCap = s.outCap := rfl
@[simp] theorem toHeader_src (h : BitVec 4) : (s.toHeader h).src = s.src := rfl
@[simp] theorem toHeader_agenda (h : BitVec 4) : (s.toHeader h).agenda = s.agenda := rfl
@[simp] theorem toHeader_reply (h : BitVec 4) : (s.toHeader h).reply = s.reply := rfl

@[simp] theorem toPayload_fmt (k : BitVec 48) (f : BitVec 32) (c : BitVec 16) : (s.toPayload k f c).fmt = s.fmt := rfl
@[simp] theorem toPayload_nch (k : BitVec 48) (f : BitVec 32) (c : BitVec 16) : (s.toPayload k f c).nch = s.nch := rfl
@[simp] theorem toPayload_nfr (k : BitVec 48) (f : BitVec 32) (c : BitVec 16) : (s.toPayload k f c).nfr = s.nfr := rfl
@[simp] theorem toPayload_srate (k : BitVec 48) (f : BitVec 32) (c : BitVec 16) : (s.toPayload k f c).srate = s.srate := rfl
@[simp] theorem toPayload_phase (k : BitVec 48) (f : BitVec 32) (c : BitVec 16) : (s.toPayload k f c).phase = .payload := rfl
@[simp] theorem toPayload_hp (k : BitVec 48) (f : BitVec 32) (c : BitVec 16) : (s.toPayload k f c).hp = s.hp := rfl
@[simp] theorem toPayload_k (k : BitVec 48) (f : BitVec 32) (c : BitVec 16) : (s.toPayload k f c).k = k := rfl
@[simp] theorem toPayload_f (k : BitVec 48) (f : BitVec 32) (c : BitVec 16) : (s.toPayload k f c).f = f := rfl
@[simp] theorem toPayload_c (k : BitVec 48) (f : BitVec 32) (c : BitVec 16) : (s.toPayload k f c).c = c := rfl
@[simp] theorem toPayload_lay (k : BitVec 48) (f : BitVec 32) (c : BitVec 16) : (s.toPayload k f c).lay = s.lay := rfl
@[simp] theorem toPayload_out (k : BitVec 48) (f : BitVec 32) (c : BitVec 16) : (s.toPayload k f c).out = s.out := rfl
@[simp] theorem toPayload_outCap (k : BitVec 48) (f : BitVec 32) (c : BitVec 16) : (s.toPayload k f c).outCap = s.outCap := rfl
@[simp] theorem toPayload_src (k : BitVec 48) (f : BitVec 32) (c : BitVec 16) : (s.toPayload k f c).src = s.src := rfl
@[simp] theorem toPayload_agenda (k : BitVec 48) (f : BitVec 32) (c : BitVec 16) : (s.toPayload k f c).agenda = s.agenda := rfl
@[simp] theorem toPayload_reply (k : BitVec 48) (f : BitVec 32) (c : BitVec 16) : (s.toPayload k f c).reply = s.reply := rfl

@[simp] theorem clearCounters_fmt : (s.clearCounters).fmt = s.fmt := rfl
@[simp] theorem clearCounters_nch : (s.clearCounters).nch = s.nch := rfl
@[simp] theorem clearCounters_nfr : (s.clearCounters).nfr = s.nfr := rfl
@[simp] theorem clearCounters_srate : (s.clearCounters).srate = s.srate := rfl
@[simp] theorem clearCounters_phase : (s.clearCounters).phase = s.phase := rfl
@[simp] theorem clearCounters_hp : (s.clearCounters).hp = 0#4 := rfl
@[simp] theorem clearCounters_k : (s.clearCounters).k = 0#48 := rfl
@[simp] theorem clearCounters_f : (s.clearCounters).f = 0#32 := rfl
@[simp] theorem clearCounters_c : (s.clearCounters).c = 0#16 := rfl
@[simp] theorem clearCounters_lay : (s.clearCounters).lay = s.lay := rfl
@[simp] theorem clearCounters_out : (s.clearCounters).out = s.out := rfl
@[simp] theorem clearCounters_outCap : (s.clearCounters).outCap = s.outCap := rfl
@[simp] theorem clearCounters_src : (s.clearCounters).src = s.src := rfl
@[simp] theorem clearCounters_agenda : (s.clearCounters).agenda = s.agenda := rfl
@[simp] theorem clearCounters_reply : (s.clearCounters).reply = s.reply := rfl

@[simp] theorem setLay_fmt (l : Layout) : (s.setLay l).fmt = s.fmt := rfl
@[simp] theorem setLay_nch (l : Layout) : (s.setLay l).nch = s.nch := rfl
@[simp] theorem setLay_nfr (l : Layout) : (s.setLay l).nfr = s.nfr := rfl
@[simp] theorem setLay_srate (l : Layout) : (s.setLay l).srate = s.srate := rfl
@[simp] theorem setLay_phase (l : Layout) : (s.setLay l).phase = s.phase := rfl
@[simp] theorem setLay_hp (l : Layout) : (s.setLay l).hp = s.hp := rfl
@[simp] theorem setLay_k (l : Layout) : (s.setLay l).k = s.k := rfl
@[simp] theorem setLay_f (l : Layout) : (s.setLay l).f = s.f := rfl
@[simp] theorem setLay_c (l : Layout) : (s.setLay l).c = s.c := rfl
@[simp] theorem setLay_lay (l : Layout) : (s.setLay l).lay = l := rfl
@[simp] theorem setLay_out (l : Layout) : (s.setLay l).out = s.out := rfl
@[simp] theorem setLay_outCap (l : Layout) : (s.setLay l).outCap = s.outCap := rfl
@[simp] theorem setLay_src (l : Layout) : (s.setLay l).src = s.src := rfl
@[simp] theorem setLay_agenda (l : Layout) : (s.setLay l).agenda = s.agenda := rfl
@[simp] theorem setLay_reply (l : Layout) : (s.setLay l).reply = s.reply := rfl

@[simp] theorem setOut_fmt (m : Option Memory) : (s.setOut m).fmt = s.fmt := rfl
@[simp] theorem setOut_nch (m : Option Memory) : (s.setOut m).nch = s.nch := rfl
@[simp] theorem setOut_nfr (m : Option Memory) : (s.setOut m).nfr = s.nfr := rfl
@[simp] theorem setOut_srate (m : Option Memory) : (s.setOut m).srate = s.srate := rfl
@[simp] theorem setOut_phase (m : Option Memory) : (s.setOut m).phase = s.phase := rfl
@[simp] theorem setOut_hp (m : Option Memory) : (s.setOut m).hp = s.hp := rfl
@[simp] theorem setOut_k (m : Option Memory) : (s.setOut m).k = s.k := rfl
@[simp] theorem setOut_f (m : Option Memory) : (s.setOut m).f = s.f := rfl
@[simp] theorem setOut_c (m : Option Memory) : (s.setOut m).c = s.c := rfl
@[simp] theorem setOut_lay (m : Option Memory) : (s.setOut m).lay = s.lay := rfl
@[simp] theorem setOut_out (m : Option Memory) : (s.setOut m).out = m := rfl
@[simp] theorem setOut_outCap (m : Option Memory) : (s.setOut m).outCap = s.outCap := rfl
@[simp] theorem setOut_src (m : Option Memory) : (s.setOut m).src = s.src := rfl
@[simp] theorem setOut_agenda (m : Option Memory) : (s.setOut m).agenda = s.agenda := rfl
@[simp] theorem setOut_reply (m : Option Memory) : (s.setOut m).reply = s.reply := rfl

@[simp] theorem setSrc_fmt (d : SrcData) : (s.setSrc d).fmt = s.fmt := rfl
@[simp] theorem setSrc_nch (d : SrcData) : (s.setSrc d).nch = s.nch := rfl
@[simp] theorem setSrc_nfr (d : SrcData) : (s.setSrc d).nfr = s.nfr := rfl
@[simp] theorem setSrc_srate (d : SrcData) : (s.setSrc d).srate = s.srate := rfl
@[simp] theorem setSrc_phase (d : SrcData) : (s.setSrc d).phase = s.phase := rfl
@[simp] theorem setSrc_hp (d : SrcData) : (s.setSrc d).hp = s.hp := rfl
@[simp] theorem setSrc_k (d : SrcData) : (s.setSrc d).k = s.k := rfl
@[simp] theorem setSrc_f (d : SrcData) : (s.setSrc d).f = s.f := rfl
@[simp] theorem setSrc_c (d : SrcData) : (s.setSrc d).c = s.c := rfl
@[simp] theorem setSrc_lay (d : SrcData) : (s.setSrc d).lay = s.lay := rfl
@[simp] theorem setSrc_out (d : SrcData) : (s.setSrc d).out = s.out := rfl
@[simp] theorem setSrc_outCap (d : SrcData) : (s.setSrc d).outCap = s.outCap := rfl
@[simp] theorem setSrc_src (d : SrcData) : (s.setSrc d).src = d := rfl
@[simp] theorem setSrc_agenda (d : SrcData) : (s.setSrc d).agenda = s.agenda := rfl
@[simp] theorem setSrc_reply (d : SrcData) : (s.setSrc d).reply = s.reply := rfl

@[simp] theorem setAgenda_fmt (es : List Event) : (s.setAgenda es).fmt = s.fmt := rfl
@[simp] theorem setAgenda_nch (es : List Event) : (s.setAgenda es).nch = s.nch := rfl
@[simp] theorem setAgenda_nfr (es : List Event) : (s.setAgenda es).nfr = s.nfr := rfl
@[simp] theorem setAgenda_srate (es : List Event) : (s.setAgenda es).srate = s.srate := rfl
@[simp] theorem setAgenda_phase (es : List Event) : (s.setAgenda es).phase = s.phase := rfl
@[simp] theorem setAgenda_hp (es : List Event) : (s.setAgenda es).hp = s.hp := rfl
@[simp] theorem setAgenda_k (es : List Event) : (s.setAgenda es).k = s.k := rfl
@[simp] theorem setAgenda_f (es : List Event) : (s.setAgenda es).f = s.f := rfl
@[simp] theorem setAgenda_c (es : List Event) : (s.setAgenda es).c = s.c := rfl
@[simp] theorem setAgenda_lay (es : List Event) : (s.setAgenda es).lay = s.lay := rfl
@[simp] theorem setAgenda_out (es : List Event) : (s.setAgenda es).out = s.out := rfl
@[simp] theorem setAgenda_outCap (es : List Event) : (s.setAgenda es).outCap = s.outCap := rfl
@[simp] theorem setAgenda_src (es : List Event) : (s.setAgenda es).src = s.src := rfl
@[simp] theorem setAgenda_agenda (es : List Event) : (s.setAgenda es).agenda = es := rfl
@[simp] theorem setAgenda_reply (es : List Event) : (s.setAgenda es).reply = s.reply := rfl

@[simp] theorem setReply_fmt (r : Option Reply) : (s.setReply r).fmt = s.fmt := rfl
@[simp] theorem setReply_nch (r : Option Reply) : (s.setReply r).nch = s.nch := rfl
@[simp] theorem setReply_nfr (r : Option Reply) : (s.setReply r).nfr = s.nfr := rfl
@[simp] theorem setReply_srate (r : Option Reply) : (s.setReply r).srate = s.srate := rfl
@[simp] theorem setReply_phase (r : Option Reply) : (s.setReply r).phase = s.phase := rfl
@[simp] theorem setReply_hp (r : Option Reply) : (s.setReply r).hp = s.hp := rfl
@[simp] theorem setReply_k (r : Option Reply) : (s.setReply r).k = s.k := rfl
@[simp] theorem setReply_f (r : Option Reply) : (s.setReply r).f = s.f := rfl
@[simp] theorem setReply_c (r : Option Reply) : (s.setReply r).c = s.c := rfl
@[simp] theorem setReply_lay (r : Option Reply) : (s.setReply r).lay = s.lay := rfl
@[simp] theorem setReply_out (r : Option Reply) : (s.setReply r).out = s.out := rfl
@[simp] theorem setReply_outCap (r : Option Reply) : (s.setReply r).outCap = s.outCap := rfl
@[simp] theorem setReply_src (r : Option Reply) : (s.setReply r).src = s.src := rfl
@[simp] theorem setReply_agenda (r : Option Reply) : (s.setReply r).agenda = s.agenda := rfl
@[simp] theorem setReply_reply (r : Option Reply) : (s.setReply r).reply = r := rfl

end Sys2Proof.Machine.State
end

