-- ==== Sys2Proof/Laws/Cells.lean ====
section
/-! SUPPORT. Sparse data and bytes: a read after a write, and that every operation keeps the canonical
form (keys strictly rising). -/

namespace Sys2Proof.Machine

namespace Cells

variable {α : Type}

@[simp] theorem get?_nil (a : Nat) : Cells.get? ([] : Cells α) a = none := rfl

@[simp] theorem get?_set (m : Cells α) (a x : Nat) (v : α) :
    Cells.get? (Cells.set m a v) x = if x = a then some v else Cells.get? m x := by
  induction m with
  | nil => simp [Cells.set, Cells.get?]
  | cons head m ih =>
    obtain ⟨b, w⟩ := head
    simp only [Cells.set]
    split_ifs with hlt heq <;> simp only [Cells.get?, ih] <;> grind

theorem get?_eq_none_of_lt {m : Cells α} {a : Nat} (h : ∀ y ∈ m, a < y.1) : Cells.get? m a = none := by
  induction m with
  | nil => rfl
  | cons head m ih =>
    obtain ⟨b, w⟩ := head
    have hb : a < b := h (b, w) (by simp)
    simp only [Cells.get?, if_neg (by omega : ¬a = b)]
    exact ih fun y hy => h y (by simp [hy])

@[simp] theorem get?_erase (m : Cells α) (a x : Nat) :
    Cells.get? (Cells.erase m a) x = if x = a then none else Cells.get? m x := by
  induction m with
  | nil => simp [Cells.erase]
  | cons head m ih =>
    obtain ⟨b, w⟩ := head
    simp only [Cells.erase, List.filter_cons] at ih ⊢
    by_cases hb : b = a
    · subst hb
      simp only [bne_self_eq_false, Bool.false_eq_true, if_false, ih, Cells.get?]
      grind
    · simp only [bne_iff_ne, ne_eq, hb, not_false_eq_true, if_true, Cells.get?, ih]
      grind

theorem mem_set {m : Cells α} {a : Nat} {v : α} {y : Nat × α} (h : y ∈ Cells.set m a v) : y.1 = a ∨ y ∈ m := by
  induction m with
  | nil => simp only [Cells.set, List.mem_singleton] at h; simp [h]
  | cons head m ih =>
    obtain ⟨b, w⟩ := head
    simp only [Cells.set] at h
    split_ifs at h <;> grind

theorem wf_set {m : Cells α} (hm : Cells.wf m) (a : Nat) (v : α) : Cells.wf (Cells.set m a v) := by
  induction m with
  | nil => simp [Cells.set, Cells.wf]
  | cons head m ih =>
    obtain ⟨b, w⟩ := head
    simp only [Cells.wf, List.pairwise_cons] at hm ih ⊢
    simp only [Cells.set]
    split_ifs with hlt heq
    · simp only [List.pairwise_cons, List.mem_cons]
      exact ⟨fun y hy => hy.elim (fun h => by simpa [h] using hlt) fun h => by have := hm.1 y h; simp_all; omega, hm⟩
    · simp only [List.pairwise_cons]
      exact ⟨fun y hy => by have := hm.1 y hy; simp_all, hm.2⟩
    · simp only [List.pairwise_cons]
      exact ⟨fun y hy => by
        have hb : b < a := by omega
        rcases mem_set hy with h | h
        · simpa [h] using hb
        · exact hm.1 y h, ih hm.2⟩

theorem wf_erase {m : Cells α} (hm : Cells.wf m) (a : Nat) : Cells.wf (Cells.erase m a) :=
  List.Pairwise.filter _ hm

/-- Equal reads of canonical data are equal data. -/
theorem ext_of_wf {m n : Cells α} (hm : Cells.wf m) (hn : Cells.wf n)
    (h : ∀ a, Cells.get? m a = Cells.get? n a) : m = n := by
  induction m generalizing n with
  | nil =>
    cases n with
    | nil => rfl
    | cons y n => obtain ⟨b, w⟩ := y; have := h b; simp [Cells.get?] at this
  | cons x m ih =>
    obtain ⟨a, v⟩ := x
    simp only [Cells.wf, List.pairwise_cons] at hm
    cases n with
    | nil => have := h a; simp [Cells.get?] at this
    | cons y n =>
      obtain ⟨b, w⟩ := y
      simp only [Cells.wf, List.pairwise_cons] at hn
      have hab : a = b := by
        rcases Nat.lt_trichotomy a b with hlt | heq | hgt
        · have hnone : Cells.get? n a = none :=
            get?_eq_none_of_lt fun y hy => Nat.lt_trans hlt (hn.1 y hy)
          have := h a
          simp [Cells.get?, hnone] at this
          exact this.1
        · exact heq
        · have hnone : Cells.get? m b = none :=
            get?_eq_none_of_lt fun y hy => Nat.lt_trans hgt (hm.1 y hy)
          have := h b
          simp [Cells.get?, hnone] at this
          exact this.1.symm
      subst hab
      have hv : v = w := by have := h a; simpa [Cells.get?] using this
      subst hv
      refine congrArg _ (ih hm.2 hn.2 fun x => ?_)
      by_cases hx : x = a
      · subst hx
        rw [get?_eq_none_of_lt fun y hy => by simpa using hm.1 y hy,
          get?_eq_none_of_lt fun y hy => by simpa using hn.1 y hy]
      · have := h x
        simpa [Cells.get?, hx] using this

end Cells

/-! Bytes written one after another. -/

theorem Memory.get?_writeBytes (m : Memory) (a : Nat) (bs : List Byte) (x : Nat) :
    Cells.get? (Memory.writeBytes m a bs) x =
      if a ≤ x ∧ x < a + bs.length then bs[x - a]? else Cells.get? m x := by
  induction bs generalizing m a with
  | nil => simp [Memory.writeBytes]
  | cons b bs ih =>
    simp only [Memory.writeBytes, ih, Cells.get?_set, List.length_cons]
    rcases Nat.lt_trichotomy x a with h | h | h
    · simp [show ¬a ≤ x by omega, show ¬(a + 1 ≤ x) by omega, show x ≠ a by omega]
    · subst h; simp
    · obtain ⟨d, rfl⟩ : ∃ d, x = a + 1 + d := ⟨x - a - 1, by omega⟩
      simp only [show a + 1 + d - (a + 1) = d by omega, show a + 1 + d - a = d + 1 by omega, List.getElem?_cons_succ,
        if_neg (show a + 1 + d ≠ a by omega)]
      by_cases hd : d < bs.length
      · rw [if_pos (by omega), if_pos (by omega)]
      · rw [if_neg (by omega), if_neg (by omega)]

/-- A write leaves every other address alone. -/
theorem Memory.get?_writeBytes_outside {m : Memory} {a x : Nat} {bs : List Byte} (h : x < a ∨ a + bs.length ≤ x) :
    Cells.get? (Memory.writeBytes m a bs) x = Cells.get? m x := by
  rw [Memory.get?_writeBytes, if_neg (by omega)]

theorem Memory.get?_writeBytes_inside {m : Memory} {a i : Nat} {bs : List Byte} (h : i < bs.length) :
    Cells.get? (Memory.writeBytes m a bs) (a + i) = bs[i]? := by
  rw [Memory.get?_writeBytes, if_pos (by omega), Nat.add_sub_cancel_left]

theorem Memory.wf_writeBytes {m : Memory} (hm : Memory.wf m) (a : Nat) (bs : List Byte) :
    Memory.wf (Memory.writeBytes m a bs) := by
  induction bs generalizing m a with
  | nil => exact hm
  | cons b bs ih => exact ih (Cells.wf_set hm a b) (a + 1)

@[simp] theorem leBytes_length (n v : Nat) : (leBytes n v).length = n := by simp [leBytes]

theorem leBytes_getElem? {n v k : Nat} (h : k < n) : (leBytes n v)[k]? = some (BitVec.ofNat 8 (v / 2 ^ (8 * k))) := by
  simp [leBytes, h]

theorem leBytes_succ (n v : Nat) : leBytes (n + 1) v = BitVec.ofNat 8 v :: leBytes n (v / 256) := by
  simp only [leBytes, List.range_succ_eq_map, List.map_cons, List.map_map]
  refine congrArg₂ _ (by simp) (List.map_congr_left fun k _ => ?_)
  simp only [Function.comp, Nat.succ_eq_add_one]
  rw [Nat.div_div_eq_div_mul, show (256 : Nat) = 2 ^ 8 from rfl, ← Nat.pow_add, show 8 * (k + 1) = 8 + 8 * k by omega]

/-- Assembling the n low bytes of v gives v reduced mod 2^(8n) (20_memory.md R70). -/
theorem leValue_leBytes (n v : Nat) : leValue (leBytes n v) = v % 2 ^ (8 * n) := by
  induction n generalizing v with
  | zero => simp [leBytes, leValue, Nat.mod_one]
  | succ n ih =>
    rw [leBytes_succ, leValue, ih, show 8 * (n + 1) = 8 + 8 * n by omega, Nat.pow_add, Nat.mod_mul]
    simp

@[simp] theorem tagBytes_length (t : Tag) : (tagBytes t).length = 4 := by cases t <;> rfl

theorem Memory.readBytes_eq_some {m : Memory} {a n : Nat} {bs : List Byte} (hlen : bs.length = n)
    (h : ∀ i, i < n → Cells.get? m (a + i) = bs[i]?) : Memory.readBytes m a n = some bs := by
  induction n generalizing a bs with
  | zero => simp [Memory.readBytes, List.eq_nil_of_length_eq_zero hlen]
  | succ n ih =>
    obtain ⟨b, bs, rfl⟩ := List.exists_cons_of_length_eq_add_one hlen
    have h0 : Cells.get? m a = some b := by simpa using h 0 (by omega)
    have ht : Memory.readBytes m (a + 1) n = some bs :=
      ih (by simpa using hlen) fun i hi => by simpa [Nat.add_right_comm, Nat.add_assoc] using h (i + 1) (by omega)
    simp [Memory.readBytes, h0, ht]

/-- `MemRead` after a write of the same bytes gives their value. -/
theorem memRead_writeBytes (m : Memory) (a : Nat) (bs : List Byte) :
    memRead (Memory.writeBytes m a bs) a bs.length = some (leValue bs) := by
  rw [memRead, Memory.readBytes_eq_some rfl fun i hi => Memory.get?_writeBytes_inside hi]
  rfl

end Sys2Proof.Machine
end

