-- ==== Sys2Proof/Laws/Ops.lean ====
section
/-! SUPPORT. One lemma per shared operation that says once everything it can do; proofs cite these and do
not unfold the operation. -/

namespace Sys2Proof.Machine

/-- A write of OUT answers a next state exactly when OUT is there and the bytes fit. -/
theorem storeBytes_next_iff {s t : State} {a : Nat} {bs : List Byte} {after : State → State} :
    storeBytes s a bs after = .next t ↔
      ∃ m, s.out = some m ∧ a + bs.length ≤ s.lay.flen.toNat ∧
        t = after (s.setOut (some (Memory.writeBytes m a bs))) := by
  unfold storeBytes
  split
  · simp_all
  · split_ifs with h <;> simp_all [eq_comm]

/-- A write of OUT never refuses. -/
theorem storeBytes_not_refused {s : State} {a : Nat} {bs : List Byte} {after : State → State} {r : Refusal} :
    storeBytes s a bs after ≠ .refused r := by
  unfold storeBytes
  split
  · simp
  · split_ifs <;> simp

/-- A write of OUT that fits runs. -/
theorem storeBytes_of_fits {s : State} {m : Memory} {a : Nat} {bs : List Byte} {after : State → State}
    (hm : s.out = some m) (hfit : a + bs.length ≤ s.lay.flen.toNat) :
    storeBytes s a bs after = .next (after (s.setOut (some (Memory.writeBytes m a bs)))) :=
  storeBytes_next_iff.2 ⟨m, hm, hfit, rfl⟩

/-- A sample step answers a next state exactly when its sample is supplied and its bytes fit. -/
theorem sampleStep_next_iff {s t : State} {writer : Word → List Byte} :
    sampleStep s writer = .next t ↔
      ∃ w m, srcRead s s.c s.f = some w ∧ s.out = some m ∧
        samplePointer s + (writer w).length ≤ s.lay.flen.toNat ∧
        t = advanceSample (s.setOut (some (Memory.writeBytes m (samplePointer s) (writer w)))) := by
  unfold sampleStep
  split
  · simp_all
  · rename_i w hw
    rw [storeBytes_next_iff]
    constructor
    · rintro ⟨m, hm, hfit, rfl⟩; exact ⟨w, m, hw, hm, hfit, rfl⟩
    · rintro ⟨w', m, hw', hm, hfit, rfl⟩
      obtain rfl : w = w' := by simpa [hw] using hw'
      exact ⟨m, hm, hfit, rfl⟩

/-- CHECK on a recognised selector runs exactly when OUT_CAP admits the file. -/
theorem checkStep_next_iff {v : Variant} {s t : State} :
    checkStep v s = .next t ↔
      fitsCap s.outCap (Layout.of v s.nch s.nfr s.srate).flen.toNat = true ∧
        t = ((s.setLay (Layout.of v s.nch s.nfr s.srate)).setOut (some [])).toHeader 0#4 := by
  unfold checkStep
  dsimp only
  split_ifs with h <;> simp [h, eq_comm]

/-- What the advance of a sample step changes: PHASE, K, F and C. -/
theorem advanceSample_frame (s : State) :
    ∃ p k f c, advanceSample s = { s with phase := p, k := k, f := f, c := c } := by
  unfold advanceSample
  split_ifs
  · exact ⟨.payload, s.k + 1#48, s.f, s.c + 1#16, rfl⟩
  · exact ⟨.payload, s.k + 1#48, s.f + 1#32, 0#16, rfl⟩
  · exact ⟨.done, s.k, s.f, s.c, rfl⟩

/-- What the end of H12 changes: PHASE, K, F and C. -/
theorem afterHeader_frame (s : State) :
    ∃ p k f c, afterHeader s = { s with phase := p, k := k, f := f, c := c } := by
  unfold afterHeader
  split_ifs
  · exact ⟨.payload, 0#48, 0#32, 0#16, rfl⟩
  · exact ⟨.done, s.k, s.f, s.c, rfl⟩

/-- A change of SRC keeps the canonical form. -/
theorem srcChange_wf {d : SrcData} (hd : Cells.wf d) (c : BitVec 16) (i : BitVec 32) (w : Option Word) :
    Cells.wf (srcChange d c i w) := by
  cases w with
  | none => exact Cells.wf_erase hd _
  | some w => exact Cells.wf_set hd _ w

/-- Different locations have different keys. -/
theorem srcKey_inj {c c' : BitVec 16} {i i' : BitVec 32} : srcKey c i = srcKey c' i' ↔ c = c' ∧ i = i' := by
  unfold srcKey
  constructor
  · intro h
    have hi := i.isLt
    have hi' := i'.isLt
    exact ⟨BitVec.eq_of_toNat_eq (by omega), BitVec.eq_of_toNat_eq (by omega)⟩
  · rintro ⟨rfl, rfl⟩; rfl

/-- A sample that HOST changes reads back as it put it; every other location is as before. -/
theorem srcRead_setSrc_change (s : State) (c c' : BitVec 16) (i i' : BitVec 32) (w : Option Word) :
    srcRead (s.setSrc (srcChange s.src c i w)) c' i' = if c' = c ∧ i' = i then w else srcRead s c' i' := by
  cases w <;> simp [srcRead, srcChange, srcKey_inj]

/-- The register map admits exactly the accesses WellFormed admits (10_state.md R26). -/
theorem regAt_isSome_iff (offset size : Nat) : (regAt offset size).isSome = regAccessWf offset size := by
  unfold regAt regAccessWf
  by_cases hs : size = 4
  · by_cases ho : offset ≤ 0x1C
    · subst hs; interval_cases offset <;> rfl
    · simp only [hs, if_true, ho, decide_false, Bool.and_false]
      split <;> first | omega | rfl
  · simp [hs]

/-- What HOST's action can do when it answers a next state: one register, the reply, the sample data, or
everything at reset. -/
theorem hostAct_next_cases {s t : State} {a : HostAction} (h : hostAct s a = .next t) :
    (∃ r v, t = regStore s r v) ∨ (∃ y, t = s.setReply y) ∨
      (∃ c i w, a = .sample c i w ∧ t = s.setSrc (srcChange s.src c i w)) ∨ (a = .reset ∧ t = resetBlock s) := by
  cases a with
  | regWrite o n v =>
    simp only [hostAct] at h
    split at h
    · exact .inl ⟨_, v, by simpa using h.symm⟩
    · simp at h
  | regRead o n =>
    simp only [hostAct] at h
    split at h
    · exact .inr (.inl ⟨_, by simpa using h.symm⟩)
    · simp at h
  | outRead a n =>
    simp only [hostAct, readOut] at h
    split at h
    · split_ifs at h
      · split at h
        · exact .inr (.inl ⟨_, by simpa using h.symm⟩)
        · simp at h
    all_goals simp at h
  | sample c i w => exact .inr (.inr (.inl ⟨c, i, w, rfl, by simpa [hostAct] using h.symm⟩))
  | reset => exact .inr (.inr (.inr ⟨rfl, by simpa [hostAct] using h.symm⟩))

/-- A register write changes at most one operand register, and only in IDLE (10_state.md R25). -/
theorem regStore_cases (s : State) (r : Reg) (v : Word) :
    regStore s r v = s ∨ s.phase = .idle ∧
      (regStore s r v = s.setFmt v ∨ regStore s r v = s.setNch (v.extractLsb' 0 16) ∨
        regStore s r v = s.setNfr v ∨ regStore s r v = s.setSrate v) := by
  unfold regStore
  split <;> rename_i hp
  · cases r <;> simp [storeOperand, hp]
  all_goals exact .inl rfl

end Sys2Proof.Machine
end

