-- ==== Sys2Proof/Laws/Step.lean ====
section
/-! SUPPORT. What one step can be, and that State.reset's memory is in canonical form. -/

namespace Sys2Proof.Machine

@[simp] theorem taken_eq (s : State) : taken s = s.setAgenda s.agenda.tail := rfl

/-- One step is one of: a rest of ENC, an action of HOST, an operation of the table, a word that is none. -/
theorem step_cases (s : State) :
    (fetch s = .rest ∧ step s = .next (taken s)) ∨
    (∃ a, fetch s = .act a ∧ step s = hostAct (taken s) a) ∨
    (∃ f w i, fetch s = .op f w ∧ decode f w = .ok i ∧ step s = exec i (taken s)) ∨
    (∃ f w u, fetch s = .op f w ∧ decode f w = .error u ∧ step s = unlisted u (taken s)) := by
  unfold step
  split
  · rename_i h; exact .inl ⟨h, rfl⟩
  · rename_i a h; exact .inr (.inl ⟨a, h, rfl⟩)
  · rename_i f w h
    split
    · rename_i i hi; exact .inr (.inr (.inl ⟨f, w, i, h, hi, rfl⟩))
    · rename_i u hu; exact .inr (.inr (.inr ⟨f, w, u, h, hu, rfl⟩))

/-- At reset OUT is absent and SRC is in canonical form. -/
theorem reset_memory : State.reset.out = none ∧ Cells.wf State.reset.src := ⟨rfl, List.Pairwise.nil⟩

end Sys2Proof.Machine
end

