-- ==== Sys2Proof/Laws/PerInstr.lean ====
section
/-! SUPPORT. Statements about every instruction as syntax, one lemma per constructor. -/

namespace Sys2Proof.Laws

/-- The operation is well formed and its word fits in the bits its format compares (30_encoding.md R90). -/
def FitsFormat.Statement (i : Instr) : Prop := i.wf = true ∧ encode i &&& i.format.mask = encode i


theorem FitsFormat.encI16 : FitsFormat.Statement .encI16 := ⟨rfl, by decide⟩
theorem FitsFormat.encF32 : FitsFormat.Statement .encF32 := ⟨rfl, by decide⟩
theorem FitsFormat.ack : FitsFormat.Statement .ack := ⟨rfl, by decide⟩
theorem FitsFormat.h0 : FitsFormat.Statement .h0 := ⟨rfl, by decide⟩
theorem FitsFormat.h1 : FitsFormat.Statement .h1 := ⟨rfl, by decide⟩
theorem FitsFormat.h2 : FitsFormat.Statement .h2 := ⟨rfl, by decide⟩
theorem FitsFormat.h3 : FitsFormat.Statement .h3 := ⟨rfl, by decide⟩
theorem FitsFormat.h4 : FitsFormat.Statement .h4 := ⟨rfl, by decide⟩
theorem FitsFormat.h5 : FitsFormat.Statement .h5 := ⟨rfl, by decide⟩
theorem FitsFormat.h6 : FitsFormat.Statement .h6 := ⟨rfl, by decide⟩
theorem FitsFormat.h7 : FitsFormat.Statement .h7 := ⟨rfl, by decide⟩
theorem FitsFormat.h8 : FitsFormat.Statement .h8 := ⟨rfl, by decide⟩
theorem FitsFormat.h9 : FitsFormat.Statement .h9 := ⟨rfl, by decide⟩
theorem FitsFormat.h10 : FitsFormat.Statement .h10 := ⟨rfl, by decide⟩
theorem FitsFormat.h11 : FitsFormat.Statement .h11 := ⟨rfl, by decide⟩
theorem FitsFormat.h12 : FitsFormat.Statement .h12 := ⟨rfl, by decide⟩
theorem FitsFormat.smpQ16 : FitsFormat.Statement .smpQ16 := ⟨rfl, by decide⟩
theorem FitsFormat.smpF32 : FitsFormat.Statement .smpF32 := ⟨rfl, by decide⟩

end Sys2Proof.Laws
end

