-- ==== Sys2Proof/Tests/Slice0.lean ====
section
/-! SUPPORT. Tests. Expected values are those of spec/95_test_vectors.md (named in each comment) or are
written out from the encodings of spec/30_encoding.md. The second half gives, for every statement with
hypotheses, a state and operands that meet them. -/

namespace Sys2Proof.Tests

open Sys2Proof Sys2Proof.Machine

/-! What WellFormed refuses (section 2.11, U9), beside the nearest thing it accepts. -/

theorem test_wf_refuses_halfword_write : (HostAction.regWrite 0x0C 2 2#32).wf = false := by decide
theorem test_wf_refuses_byte_read : (HostAction.regRead 0x04 1).wf = false := by decide
theorem test_wf_refuses_unaligned_write : (HostAction.regWrite 0x0A 4 2#32).wf = false := by decide
theorem test_wf_refuses_offset_past_the_map : (HostAction.regRead 0x20 4).wf = false := by decide
theorem test_wf_accepts_last_register : (HostAction.regRead 0x1C 4).wf = true := by decide
theorem test_wf_accepts_nch_write : (HostAction.regWrite 0x0C 4 2#32).wf = true := by decide

/-! Decoding: words written out bit by bit from R91, R92, R93 and R99. -/

theorem test_decode_encI16 : decode .cmd 0b00000000000000000000000000000001#32 = .ok .encI16 := by decide
theorem test_decode_encF32 : decode .cmd 0b00000000000000000000000000000011#32 = .ok .encF32 := by decide
theorem test_decode_ack : decode .ctrl 0b00000000000000000000000000000010#32 = .ok .ack := by decide
theorem test_decode_ack_ignores_reserved : decode .ctrl 0b11111111111111111111111111111110#32 = .ok .ack := by decide
theorem test_decode_h0 : decode .hstep 0b0000#32 = .ok .h0 := by decide
theorem test_decode_h1 : decode .hstep 0b0001#32 = .ok .h1 := by decide
theorem test_decode_h2 : decode .hstep 0b0010#32 = .ok .h2 := by decide
theorem test_decode_h3 : decode .hstep 0b0011#32 = .ok .h3 := by decide
theorem test_decode_h4 : decode .hstep 0b0100#32 = .ok .h4 := by decide
theorem test_decode_h5 : decode .hstep 0b0101#32 = .ok .h5 := by decide
theorem test_decode_h6 : decode .hstep 0b0110#32 = .ok .h6 := by decide
theorem test_decode_h7 : decode .hstep 0b0111#32 = .ok .h7 := by decide
theorem test_decode_h8 : decode .hstep 0b1000#32 = .ok .h8 := by decide
theorem test_decode_h9 : decode .hstep 0b1001#32 = .ok .h9 := by decide
theorem test_decode_h10 : decode .hstep 0b1010#32 = .ok .h10 := by decide
theorem test_decode_h11 : decode .hstep 0b1011#32 = .ok .h11 := by decide
theorem test_decode_h12 : decode .hstep 0b1100#32 = .ok .h12 := by decide
theorem test_decode_smpQ16 : decode .wsel 0b0#32 = .ok .smpQ16 := by decide
theorem test_decode_smpF32 : decode .wsel 0b1#32 = .ok .smpF32 := by decide

/-- R101, vector E4: all 32 bits of FMT are compared. -/
theorem test_decode_selector_compares_all_bits : decode .cmd 0x00010001#32 = .error .unknownSelector := by decide
/-- Vector K5. -/
theorem test_decode_ctrl_reserved : decode .ctrl 0b11#32 = .error .ctrlReserved := by decide
theorem test_decode_hstep_13_selects_nothing : decode .hstep 0b1101#32 = .error .headerStepReserved := by decide

/-! States of program P1 (stereo, three frames, Int16) and of P2 (mono, two frames, Float32). -/

/-- P1's samples: channel 0 = [0.0, 1.0, -1.0], channel 1 = [0.5, -0.5, 2.0]. -/
def p1Src : SrcData :=
  [(0, 0x00000000#32), (1, 0x3F800000#32), (2, 0xBF800000#32),
   (2 ^ 32, 0x3F000000#32), (2 ^ 32 + 1, 0xBF000000#32), (2 ^ 32 + 2, 0x40000000#32)]

/-- P1 before START. -/
def p1 : State :=
  { State.reset with fmt := 1#32, nch := 2#16, nfr := 3#32, srate := 44100#32, src := p1Src }

/-- The dump of OUT at the end of P1. -/
def p1File : List Byte :=
  [0x52#8, 0x49#8, 0x46#8, 0x46#8, 0x30#8, 0x00#8, 0x00#8, 0x00#8, 0x57#8, 0x41#8, 0x56#8, 0x45#8, 0x66#8, 0x6D#8, 0x74#8, 0x20#8]
  ++ [0x10#8, 0x00#8, 0x00#8, 0x00#8, 0x01#8, 0x00#8, 0x02#8, 0x00#8, 0x44#8, 0xAC#8, 0x00#8, 0x00#8, 0x10#8, 0xB1#8, 0x02#8, 0x00#8]
  ++ [0x04#8, 0x00#8, 0x10#8, 0x00#8, 0x64#8, 0x61#8, 0x74#8, 0x61#8, 0x0C#8, 0x00#8, 0x00#8, 0x00#8, 0x00#8, 0x00#8, 0x00#8, 0x40#8]
  ++ [0xFF#8, 0x7F#8, 0x00#8, 0xC0#8, 0x00#8, 0x80#8, 0xFF#8, 0x7F#8]

/-- P1 in the middle of its encode: n bytes written. -/
def p1At (phase : Phase) (hp : BitVec 4) (k : BitVec 48) (f : BitVec 32) (c : BitVec 16) (n : Nat) : State :=
  { p1 with
    lay := { wsel := 0#1, afmt := 1#16, bits := 16#16, bps := 2#3, bpf := 4#18, bpsec := 176400#50,
             dlen := 12#50, flen := 56#50 }
    phase := phase, hp := hp, k := k, f := f, c := c, out := some (Memory.writeBytes [] 0 (p1File.take n)) }

/-- P1 with header step h next, and with sample k of PAYLOAD next, and in DONE. -/
def p1Header (h : Nat) : State := p1At .header (BitVec.ofNat 4 h) 0#48 0#32 0#16 (headerOffset h)
def p1Sample (k : Nat) : State :=
  p1At .payload 0#4 (BitVec.ofNat 48 k) (BitVec.ofNat 32 (k / 2)) (BitVec.ofNat 16 (k % 2)) (44 + 2 * k)
def p1Done : State := p1At .done 0#4 0#48 0#32 0#16 56

/-- P2 before START: 1.5 and -0.0. -/
def p2 : State :=
  { State.reset with
    fmt := 3#32, nch := 1#16, nfr := 2#32, srate := 8000#32, src := [(0, 0x3FC00000#32), (1, 0x80000000#32)] }

/-- P2 with an empty buffer, in PAYLOAD or HEADER. -/
def p2At (phase : Phase) (hp : BitVec 4) (k : BitVec 48) (f : BitVec 32) : State :=
  { p2 with
    lay := { wsel := 1#1, afmt := 3#16, bits := 32#16, bps := 4#3, bpf := 4#18, bpsec := 32000#50,
             dlen := 8#50, flen := 52#50 }
    phase := phase, hp := hp, k := k, f := f, c := 0#16, out := some [] }

/-- A state with the layout of vector H-m (Float32, 40000 channels, no frame, 96000 Hz), in HEADER. -/
def hm (h : BitVec 4) : State :=
  { State.reset with
    fmt := 3#32, nch := 40000#16, nfr := 0#32, srate := 96000#32, phase := .header, hp := h, out := some []
    lay := { wsel := 1#1, afmt := 3#16, bits := 32#16, bps := 4#3, bpf := 160000#18, bpsec := 15360000000#50,
             dlen := 0#50, flen := 44#50 } }

/-- A state with the layout of vector H-p (Int16, 2 channels, 2147483648 frames), in HEADER. -/
def hpBig (h : BitVec 4) : State :=
  { State.reset with
    fmt := 1#32, nch := 2#16, nfr := 2147483648#32, srate := 44100#32, phase := .header, hp := h, out := some []
    lay := { wsel := 0#1, afmt := 1#16, bits := 16#16, bps := 2#3, bpf := 4#18, bpsec := 176400#50,
             dlen := 8589934592#50, flen := 8589934636#50 } }

/-- The state after one step, if the step answers one. -/
def after (s : State) : Option State :=
  match step s with
  | .next t => some t
  | .fault _ => none
  | .refused _ => none

/-- The n bytes at `a` of OUT after one step. -/
def stored (s : State) (a n : Nat) : Option (List Byte) :=
  (after s).bind fun t => t.out.bind fun m => Memory.readBytes m a n

/-! The commands. -/

/-- P1, the CHECK step: WSEL 0, AFMT 1, BITS 16, BPS 2, BPF 4, BPSEC 176400, DLEN 12, FLEN 56. -/
theorem test_encI16_latches_p1 : after { p1 with phase := .check } = some ((p1Header 0)) := by decide
/-- P2, the CHECK step. -/
theorem test_encF32_latches_p2 : after { p2 with phase := .check } = some ((p2At .header 0#4 0#48 0#32)) := by decide
/-- Vector H-r, the largest configuration: no latched value is truncated. -/
theorem test_encF32_largest :
    (after { State.reset with phase := .check, fmt := 3#32, nch := 65535#16, nfr := 4294967295#32, srate := 4294967295#32 }).map
      (fun t => (t.lay.bpf.toNat, t.lay.bpsec.toNat, t.lay.dlen.toNat, t.lay.flen.toNat)) =
    some (262140, 1125882726711300, 1125882726711300, 1125882726711344) := by decide
/-- Vector H-j: NCH = 32768 makes BPF 65536. -/
theorem test_encI16_wide_frame :
    (after { State.reset with phase := .check, fmt := 1#32, nch := 32768#16, nfr := 1#32, srate := 1#32 }).map
      (fun t => (t.lay.bpf.toNat, t.lay.bpsec.toNat, t.lay.dlen.toNat, t.lay.flen.toNat)) =
    some (65536, 65536, 65536, 65580) := by decide
/-- Vector K16. -/
theorem test_ack_in_done : after { p1Done with agenda := [ackEvent] } = some (p1) := by decide
/-- Vector K11. -/
theorem test_ack_in_payload_ignored :
    after { p1Sample 2 with agenda := [ackEvent] } = some ((p1Sample 2)) := by decide
/-- Vector K6: START with all reserved bits 1. -/
theorem test_start_ignores_reserved_bits :
    after { p1 with agenda := [.host (.regWrite 0x00 4 0xFFFFFFFD#32)] } = some ({ p1 with phase := .check }) := by decide
/-- Vectors E4 and E6: no layout, no buffer, sizes not looked at. -/
theorem test_unknown_selector_enters_error :
    after { State.reset with phase := .check, fmt := 0x00010001#32 } =
      some ({ State.reset with phase := .error, fmt := 0x00010001#32 }) := by decide

/-! The header steps: column H-a of section 2.7, and the truncated fields of P5 (H-m) and H-p. -/

theorem test_h0_p1 : stored (p1Header 0) 0 4 = some [0x52#8, 0x49#8, 0x46#8, 0x46#8] := by decide
theorem test_h1_p1 : stored (p1Header 1) 4 4 = some [0x30#8, 0x00#8, 0x00#8, 0x00#8] := by decide
theorem test_h2_p1 : stored (p1Header 2) 8 4 = some [0x57#8, 0x41#8, 0x56#8, 0x45#8] := by decide
theorem test_h3_p1 : stored (p1Header 3) 12 4 = some [0x66#8, 0x6D#8, 0x74#8, 0x20#8] := by decide
theorem test_h4_p1 : stored (p1Header 4) 16 4 = some [0x10#8, 0x00#8, 0x00#8, 0x00#8] := by decide
theorem test_h5_p2 : stored (p2At .header 5#4 0#48 0#32) 20 2 = some [0x03#8, 0x00#8] := by decide
theorem test_h6_p5 : stored (hm 6#4) 22 2 = some [0x40#8, 0x9C#8] := by decide
theorem test_h7_p1 : stored (p1Header 7) 24 4 = some [0x44#8, 0xAC#8, 0x00#8, 0x00#8] := by decide
theorem test_h8_p1 : stored (p1Header 8) 28 4 = some [0x10#8, 0xB1#8, 0x02#8, 0x00#8] := by decide
theorem test_h9_p1 : stored (p1Header 9) 32 2 = some [0x04#8, 0x00#8] := by decide
theorem test_h10_p2 : stored (p2At .header 10#4 0#48 0#32) 34 2 = some [0x20#8, 0x00#8] := by decide
theorem test_h11_p1 : stored (p1Header 11) 36 4 = some [0x64#8, 0x61#8, 0x74#8, 0x61#8] := by decide
theorem test_h12_p1 : after (p1Header 12) = some ({ p1Sample 0 with hp := 12#4 }) := by decide
/-- H-p: `FLEN - 8` = 8589934628 is stored as 0x00000024. -/
theorem test_h1_truncates : stored (hpBig 1#4) 4 4 = some [0x24#8, 0x00#8, 0x00#8, 0x00#8] := by decide
/-- P5: BPSEC = 15360000000 is stored as 0x93870000. -/
theorem test_h8_truncates : stored (hm 8#4) 28 4 = some [0x00#8, 0x00#8, 0x87#8, 0x93#8] := by decide
/-- P5: BPF = 160000 is stored as 0x7100. -/
theorem test_h9_truncates : stored (hm 9#4) 32 2 = some [0x00#8, 0x71#8] := by decide
/-- H-p: DLEN = 8589934592 is stored as 0x00000000. -/
theorem test_h12_truncates : stored (hpBig 12#4) 40 4 = some [0x00#8, 0x00#8, 0x00#8, 0x00#8] := by decide
/-- P5 has no sample: H12 goes to DONE. -/
theorem test_h12_without_samples : (after (hm 12#4)).map (·.phase) = some .done := by decide

/-! The sample steps: the tables of P1 and P2. -/

/-- P1, K = 1: 0.5 in channel 1 is written as 00 40 at 46, and channel 0 of frame 1 is next. -/
theorem test_smpQ16_p1 : after (p1Sample 1) = some ((p1Sample 2)) := by decide
/-- P1, K = 5: 2.0 clips to FF 7F at 54, and the encode is done. -/
theorem test_smpQ16_last :
    after (p1Sample 5) = some ({ p1Done with k := 5#48, f := 2#32, c := 1#16 }) := by decide
/-- P2, K = 0: 1.5 is out of range and passes through. -/
theorem test_smpF32_p2 :
    stored (p2At .payload 0#4 0#48 0#32) 44 4 = some [0x00#8, 0x00#8, 0xC0#8, 0x3F#8] := by decide
/-- P2, K = 1: the sign of -0 is kept. -/
theorem test_smpF32_negative_zero :
    stored (p2At .payload 0#4 1#48 1#32) 48 4 = some [0x00#8, 0x00#8, 0x00#8, 0x80#8] := by decide
/-- U2: a location HOST did not supply. -/
theorem test_sample_not_supplied :
    step { p2At .payload 0#4 0#48 0#32 with src := [] } = .refused .sampleNotSupplied := rfl

/-! The quantizer: sections 2.1 and 2.2. -/

/-- 0.7 rounds up, -0.3 away from 0. -/
theorem test_q16_ordinary : q16 .away 0#16 0x3F333333#32 = 22938 ∧ q16 .away 0#16 0xBE99999A#32 = -9830 := by decide
/-- A tie at 12344.5: the two permitted results. -/
theorem test_q16_tie : q16 .away 0#16 0x3EC0E200#32 = 12345 ∧ q16 .even 0#16 0x3EC0E200#32 = 12344 := by decide

/-! HOST's port: section 2.9 and 2.11. -/

/-- K3: bits 31:16 of NCH are ignored. -/
theorem test_write_nch : after { p1 with agenda := [.host (.regWrite 0x0C 4 0x00012345#32)] } =
    some ({ p1 with nch := 0x2345#16 }) := by decide
/-- K8: an operand register is locked during the encode. -/
theorem test_write_fmt_in_header : after { p1Header 5 with agenda := [.host (.regWrite 0x08 4 3#32)] } =
    some ((p1Header 5)) := by decide
/-- K13 and K17: STATUS in DONE and in ERROR. -/
theorem test_status : statusWord .done = 0x00000002#32 ∧ statusWord .error = 0x00000104#32 := by decide
/-- H-r: FLEN_HI and FLEN_LO. -/
theorem test_file_length_registers :
    regValue { p1 with lay := { p1Done.lay with flen := 1125882726711344#50 } } .flenLo = 0xFFFC0030#32 ∧
    regValue { p1 with lay := { p1Done.lay with flen := 1125882726711344#50 } } .flenHi = 0x3FFFB#32 := by decide
/-- `OUT 52, 4` in DONE with FLEN = 56. -/
theorem test_read_out : after { p1Done with agenda := [.host (.outRead 52 4)] } =
    some ({ p1Done with reply := some (.bytes [0x00#8, 0x80#8, 0xFF#8, 0x7F#8]) }) := by decide
/-- `OUT 54, 4` in DONE with FLEN = 56. -/
theorem test_read_out_beyond : step { p1Done with agenda := [.host (.outRead 54 4)] } = .refused .outReadBeyond := rfl

/-! A table row's word stored where the next step finds it. -/

theorem test_fetch_h7 : after (State.reset.withFetchWord 8 7) =
    some ({ State.reset.withFetchWord 8 7 with
      agenda := [], hp := 8#4, out := some [(24, 0x00#8), (25, 0x00#8), (26, 0x00#8), (27, 0x00#8)] }) := by decide
theorem test_fetch_encF32 : decodeTableWord 32 3 = some .encF32 ∧ decodeTableWord 8 12 = some .h12 := by decide

/-! Witnesses: states that meet the hypotheses of the statements. -/

theorem p1_src_wf : Cells.wf p1Src := by decide

/-- The layout of the P1 states is the one CHECK computes. -/
theorem p1At_layout (phase : Phase) (hp : BitVec 4) (k : BitVec 48) (f : BitVec 32) (c : BitVec 16) (n : Nat) :
    (p1At phase hp k f c n).lay = Layout.of .int16 2#16 3#32 44100#32 := by
  show p1Done.lay = _
  decide

/-- Every P1 state that has written as many bytes as its sequencer says holds a live encode. -/
theorem p1At_live (phase : Phase) (hp : BitVec 4) (k : BitVec 48) (f : BitVec 32) (c : BitVec 16) (n : Nat)
    (hn : n ≤ 56) (hw : bytesWritten (p1At phase hp k f c n) = n) : Live (p1At phase hp k f c n) := by
  have hlen : (p1File.take n).length = n := by
    have : p1File.length = 56 := by decide
    simp [this, hn]
  have hget (a : Nat) : Cells.get? (Memory.writeBytes [] 0 (p1File.take n)) a =
      if a < n then (p1File.take n)[a]? else none := by
    simp [Memory.get?_writeBytes, hlen]
  refine ⟨⟨.int16, rfl, p1At_layout ..⟩, rfl, ⟨_, rfl, Memory.wf_writeBytes List.Pairwise.nil _ _, fun a => ?_⟩,
    fun a ha h44 => ?_⟩
  · rw [hw, hget]
    by_cases ha : a < n <;> simp [ha, hlen]
  · rw [hw] at ha
    have hhead : ∀ x < 44, p1File[x]? = (headerImage p1Done)[x]? := by decide
    show Cells.get? (Memory.writeBytes [] 0 (p1File.take n)) a = (headerImage p1Done)[a]?
    rw [hget, if_pos ha, List.getElem?_take, if_pos ha]
    exact hhead a h44

theorem p1Header_inv (h : Nat) (hh : h ≤ 12) : Inv (p1Header h) := by
  refine ⟨p1_src_wf, ?_, ?_⟩
  · show (BitVec.ofNat 4 h).toNat ≤ 12
    simp; omega
  · refine p1At_live _ _ _ _ _ _ ?_ ?_
    · interval_cases h <;> decide
    · show headerOffset (BitVec.ofNat 4 h).toNat = headerOffset h
      interval_cases h <;> rfl

theorem p1Sample_inv (k : Nat) (hk : k < 6) : Inv (p1Sample k) := by
  refine ⟨p1_src_wf, ⟨?_, ?_, ?_⟩, ?_⟩
  · interval_cases k <;> decide
  · interval_cases k <;> decide
  · interval_cases k <;> decide
  · refine p1At_live _ _ _ _ _ _ (by omega) ?_
    interval_cases k <;> decide

theorem p1Done_inv : Inv p1Done := ⟨p1_src_wf, p1At_live _ _ _ _ _ _ (by decide) (by decide)⟩

theorem p1_rest : AtRest p1 := ⟨rfl, rfl, rfl, rfl, rfl, rfl⟩

/-- P1 in a phase that holds no encode. -/
theorem p1_inv : Inv p1 := ⟨p1_src_wf, p1_rest⟩
theorem p1_check_inv : Inv { p1 with phase := .check } := ⟨p1_src_wf, p1_rest.1, rfl, rfl, rfl, rfl, rfl⟩
theorem p1_error_inv : Inv { p1 with phase := .error, fmt := 2#32 } := ⟨p1_src_wf, p1_rest.1, rfl, rfl, rfl, rfl, rfl⟩

/-- HOST has supplied P1's whole rectangle. -/
theorem p1_covers : SrcCovers p1 := by
  intro c f hc hf
  have hc : c < 2 := hc
  have hf : f < 3 := hf
  interval_cases c <;> interval_cases f <;> decide

theorem witness_EncodedOperationDecodesBack : Instr.smpF32.wf = true := rfl

/-- FMT in CHECK, HP = 0 and 12 in HEADER, WSEL = 0 and 1 in PAYLOAD, a CTRL write, and the three phases in
which ENC rests. -/
theorem witness_StepRunsDecodedOperation :
    (EncTurn { p1 with phase := .check } ∧ decode .cmd p1.fmt = .ok .encI16) ∧
    (EncTurn (p1Header 0) ∧ (p1Header 0).phase = .header ∧
      decode .hstep ((p1Header 0).hp.setWidth 32) = .ok .h0) ∧
    (EncTurn (p1Header 12) ∧ (p1Header 12).phase = .header ∧
      decode .hstep ((p1Header 12).hp.setWidth 32) = .ok .h12) ∧
    (EncTurn (p1Sample 0) ∧ (p1Sample 0).phase = .payload ∧
      decode .wsel ((p1Sample 0).lay.wsel.setWidth 32) = .ok .smpQ16) ∧
    (EncTurn (p2At .payload 0#4 0#48 0#32) ∧
      decode .wsel ((p2At .payload 0#4 0#48 0#32).lay.wsel.setWidth 32) = .ok .smpF32) ∧
    (HostTurn { p1Done with agenda := [ackEvent] } (.regWrite 0x00 4 2#32) ∧ decode .ctrl 2#32 = .ok .ack) ∧
    (EncTurn { p1 with agenda := [.enc] } ∧ p1.phase = .idle) ∧ (EncTurn p1Done ∧ p1Done.phase = .done) ∧
    EncTurn { p1 with phase := .error } :=
  ⟨⟨.inl rfl, by decide⟩, ⟨.inl rfl, rfl, by decide⟩, ⟨.inl rfl, rfl, by decide⟩, ⟨.inl rfl, rfl, by decide⟩,
    ⟨.inl rfl, by decide⟩, ⟨rfl, by decide⟩, ⟨.inr rfl, rfl⟩, ⟨.inl rfl, rfl⟩, .inl rfl⟩

/-- START in IDLE and in DONE (K14), ACK, 0b00 (K4), 0b11 (K5), all with reserved bits, and a read. -/
theorem witness_CtrlWriteGivesCommands :
    (HostTurn { p1 with agenda := [.host (.regWrite 0x00 4 0xFFFFFFFD#32)] } (.regWrite 0x00 4 0xFFFFFFFD#32) ∧
      (0xFFFFFFFD#32).getLsbD 0 = true ∧ (0xFFFFFFFD#32).getLsbD 1 = false ∧ p1.phase = .idle) ∧
    (HostTurn { p1Done with agenda := [startEvent] } (.regWrite 0x00 4 1#32) ∧ p1Done.phase ≠ .idle) ∧
    (HostTurn { p1Done with agenda := [ackEvent] } (.regWrite 0x00 4 2#32) ∧
      (2#32).getLsbD 0 = false ∧ (2#32).getLsbD 1 = true) ∧
    (HostTurn { p1 with agenda := [.host (.regWrite 0x00 4 0#32)] } (.regWrite 0x00 4 0#32) ∧
      (0#32).getLsbD 0 = (0#32).getLsbD 1) ∧
    (HostTurn { p1 with agenda := [.host (.regWrite 0x00 4 3#32)] } (.regWrite 0x00 4 3#32) ∧
      (3#32).getLsbD 0 = (3#32).getLsbD 1) ∧
    HostTurn { p1 with agenda := [.host (.regRead 0x00 4)] } (.regRead 0x00 4) :=
  ⟨⟨rfl, by decide, by decide, rfl⟩, ⟨rfl, by decide⟩, ⟨rfl, by decide, by decide⟩, ⟨rfl, by decide⟩,
    ⟨rfl, by decide⟩, rfl⟩

theorem witness_StatusShowsPhase : HostTurn { p1Done with agenda := [.host (.regRead 0x04 4)] } (.regRead 0x04 4) := rfl

/-- Each register written in IDLE, each written in another phase, each read. -/
theorem witness_OperandRegistersLockOutsideIdle :
    (∀ offset v, HostTurn { p1 with agenda := [.host (.regWrite offset 4 v)] } (.regWrite offset 4 v) ∧ p1.phase = .idle) ∧
    (∀ offset v, HostTurn { p1Header 5 with agenda := [.host (.regWrite offset 4 v)] } (.regWrite offset 4 v) ∧
      (p1Header 5).phase ≠ .idle) ∧
    ∀ offset, HostTurn { p1Done with agenda := [.host (.regRead offset 4)] } (.regRead offset 4) :=
  ⟨fun _ _ => ⟨rfl, rfl⟩, fun _ _ => ⟨rfl, by decide⟩, fun _ => rfl⟩

theorem witness_ReadOnlyRegistersIgnoreWrites :
    HostTurn { p1Done with agenda := [.host (.regWrite 0x04 4 0#32)] } (.regWrite 0x04 4 0#32) ∧
    HostTurn { p1 with agenda := [.host (.regWrite 0x18 4 1#32)] } (.regWrite 0x18 4 1#32) ∧
    HostTurn { p1 with agenda := [.host (.regWrite 0x1C 4 1#32)] } (.regWrite 0x1C 4 1#32) := ⟨rfl, rfl, rfl⟩

theorem witness_FileLengthRegistersShowFlen :
    HostTurn { p1Done with agenda := [.host (.regRead 0x18 4)] } (.regRead 0x18 4) ∧
    HostTurn { p1Done with agenda := [.host (.regRead 0x1C 4)] } (.regRead 0x1C 4) ∧
    (p1Done.phase = .done ∧ exec .ack p1Done = .next p1) ∧
    (exec .ack { p1 with phase := .error } = .next p1) ∧ Inv { p1 with phase := .error, fmt := 2#32 } :=
  ⟨rfl, rfl, ⟨rfl, rfl⟩, rfl, p1_error_inv⟩

/-- The ways an access is ill formed, and both ends of the map. -/
theorem witness_RegisterAccessIsAlignedWord :
    (∀ offset size v, HostTurn { p1 with agenda := [.host (.regWrite offset size v)] } (.regWrite offset size v) ∧
      HostTurn { p1 with agenda := [.host (.regRead offset size)] } (.regRead offset size)) ∧
    ¬((2 : Nat) = 4 ∧ 0x0C % 4 = 0 ∧ 0x0C ≤ 0x1C) ∧ ¬((4 : Nat) = 4 ∧ 0x0A % 4 = 0 ∧ 0x0A ≤ 0x1C) ∧
    ¬((4 : Nat) = 4 ∧ 0x20 % 4 = 0 ∧ 0x20 ≤ 0x1C) ∧ ((4 : Nat) = 4 ∧ 0x00 % 4 = 0 ∧ 0x00 ≤ 0x1C) ∧
    ((4 : Nat) = 4 ∧ 0x1C % 4 = 0 ∧ 0x1C ≤ 0x1C) :=
  ⟨fun _ _ _ => ⟨rfl, rfl⟩, by decide, by decide, by decide, by decide, by decide⟩

/-- `OUT 0, 4` in PAYLOAD, `OUT 54, 4` and `OUT 52, 4` in DONE with FLEN = 56 (section 2.11). -/
theorem witness_OutIsReadableOnlyInDone :
    (HostTurn { p1Sample 0 with agenda := [.host (.outRead 0 4)] } (.outRead 0 4) ∧ (p1Sample 0).phase ≠ .done) ∧
    (HostTurn { p1Done with agenda := [.host (.outRead 54 4)] } (.outRead 54 4) ∧ p1Done.phase = .done ∧
      p1Done.lay.flen.toNat < 54 + 4) ∧
    (HostTurn { p1Done with agenda := [.host (.outRead 52 4)] } (.outRead 52 4) ∧
      Inv { p1Done with agenda := [.host (.outRead 52 4)] } ∧ 52 + 4 ≤ p1Done.lay.flen.toNat) :=
  ⟨⟨rfl, by decide⟩, ⟨rfl, rfl, by decide⟩, ⟨rfl, ⟨p1Done_inv.1, p1Done_inv.2.1, p1Done_inv.2.2, p1Done_inv.2.3,
    p1Done_inv.2.4⟩, by decide⟩⟩

theorem witness_MemReadAfterMemWrite : Memory.wf [(4, 0x30#8), (44, 0#8)] := by decide

/-- A sample put, and a sample taken away. -/
theorem witness_SampleChangeIsLocal :
    HostTurn { p1 with agenda := [.host (.sample 0#16 1#32 (some 7#32))] } (.sample 0#16 1#32 (some 7#32)) ∧
    HostTurn { p1 with agenda := [.host (.sample 0xFFFF#16 0xFFFFFFFF#32 none)] } (.sample 0xFFFF#16 0xFFFFFFFF#32 none) ∧
    (1#16 ≠ 0#16 ∨ 1#32 ≠ 1#32) := ⟨rfl, rfl, by decide⟩

/-- START in CHECK, a write of FLEN_HI in HEADER, ACK in PAYLOAD. -/
theorem witness_BusyBlockIgnoresRegisterWrites :
    HostTurn { p1 with phase := .check, agenda := [startEvent] } (.regWrite 0x00 4 1#32) ∧
    (HostTurn { p1Header 5 with agenda := [.host (.regWrite 0x1C 4 3#32)] } (.regWrite 0x1C 4 3#32) ∧
      (p1Header 5).phase = .header) ∧
    (HostTurn { p1Sample 2 with agenda := [ackEvent] } (.regWrite 0x00 4 2#32) ∧ (p1Sample 2).phase = .payload) :=
  ⟨rfl, ⟨rfl, rfl⟩, ⟨rfl, rfl⟩⟩

theorem witness_ResetEventClearsTheBlock : HostTurn { p1Sample 3 with agenda := [.host .reset] } .reset := rfl

/-- OUT_CAP unbounded, exactly FLEN, and one byte less, for both variants. -/
theorem witness_CheckLatchesExactLayout :
    fitsCap none (44 + 2 * 3 * 2) = true ∧ fitsCap (some 56) (44 + p1.nch.toNat * p1.nfr.toNat * 2) = true ∧
    fitsCap (some 55) (44 + p1.nch.toNat * p1.nfr.toNat * 2) = false ∧
    fitsCap (some 68) (44 + p1.nch.toNat * p1.nfr.toNat * 4) = true ∧
    fitsCap (some 67) (44 + p1.nch.toNat * p1.nfr.toNat * 4) = false := by decide

theorem witness_UnsupportedFormatEntersError :
    EncTurn { p1 with phase := .check, fmt := 2#32 } ∧ (2#32 : BitVec 32) ≠ 1#32 ∧ (2#32 : BitVec 32) ≠ 3#32 ∧
    Inv { p1 with phase := .check, fmt := 2#32 } :=
  ⟨.inl rfl, by decide, by decide, p1_src_wf, rfl, rfl, rfl, rfl, rfl, rfl⟩

theorem witness_UnsupportedFormatIsPrecise :
    ({ p1 with fmt := 0x00010001#32, agenda := [startEvent] } : State).phase = .idle ∧
    (0x00010001#32 : BitVec 32) ≠ 1#32 ∧ (0x00010001#32 : BitVec 32) ≠ 3#32 := ⟨rfl, by decide, by decide⟩

theorem witness_RetryRaisesTheSameError :
    Inv { p1 with phase := .error, fmt := 2#32, agenda := [ackEvent, startEvent] } ∧ (2#32 : BitVec 32) ≠ 1#32 ∧
    (2#32 : BitVec 32) ≠ 3#32 := ⟨⟨p1_src_wf, p1_rest.1, rfl, rfl, rfl, rfl, rfl⟩, by decide, by decide⟩

theorem witness_AckReleasesDoneAndError :
    p1Done.phase = .done ∧ ({ p1 with phase := .error } : State).phase = .error ∧ p1.phase = .idle ∧
    ({ p1 with phase := .check } : State).phase = .check ∧ (p1Header 0).phase = .header ∧
    (p1Sample 0).phase = .payload := ⟨rfl, rfl, rfl, rfl, rfl, rfl⟩

/-- The shortest file, 44 bytes, has room for every header field; the last of them ends at its end. -/
theorem witness_HeaderSteps : ∀ a n, a + n ≤ 44 → OutReady (hm 0#4) a n := fun _ _ h => ⟨rfl, h⟩

theorem witness_HeaderTagSteps : OutReady (hm 0#4) 0 4 ∧ OutReady (hm 2#4) 8 4 ∧ OutReady (hm 3#4) 12 4 ∧
    OutReady (hm 11#4) 36 4 := ⟨⟨rfl, by decide⟩, ⟨rfl, by decide⟩, ⟨rfl, by decide⟩, ⟨rfl, by decide⟩⟩

theorem witness_HeaderWordSteps : OutReady (hm 1#4) 4 4 ∧ (hm 1#4).lay.flen.toNat = 44 + (hm 1#4).lay.dlen.toNat ∧
    OutReady (hm 4#4) 16 4 ∧ OutReady (hm 7#4) 24 4 ∧ OutReady (hm 8#4) 28 4 :=
  ⟨⟨rfl, by decide⟩, by decide, ⟨rfl, by decide⟩, ⟨rfl, by decide⟩, ⟨rfl, by decide⟩⟩

theorem witness_HeaderHalfwordSteps : OutReady (hm 5#4) 20 2 ∧ OutReady (hm 6#4) 22 2 ∧ OutReady (hm 9#4) 32 2 ∧
    OutReady (hm 10#4) 34 2 := ⟨⟨rfl, by decide⟩, ⟨rfl, by decide⟩, ⟨rfl, by decide⟩, ⟨rfl, by decide⟩⟩

/-- With samples and with none. -/
theorem witness_LastHeaderStepEntersPayloadOrDone :
    (OutReady (p1Header 12) 40 4 ∧ 0 < (p1Header 12).nch.toNat * (p1Header 12).nfr.toNat) ∧
    (OutReady (hm 12#4) 40 4 ∧ (hm 12#4).nch.toNat * (hm 12#4).nfr.toNat = 0) :=
  ⟨⟨⟨rfl, by decide⟩, by decide⟩, ⟨⟨rfl, by decide⟩, by decide⟩⟩

theorem witness_HeaderStepsWriteTheHeader : (p1Header 0).phase = .header ∧ (p1Header 0).hp = 0#4 ∧
    (p1Header 0).agenda = [] ∧ OutReady (p1Header 0) 0 44 := ⟨rfl, rfl, rfl, rfl, by decide⟩

/-- Vectors H-i and H-k: the largest channel counts that fit. -/
theorem witness_FitsMakesHeaderFieldsExact :
    (32767 < 2 ^ 16 ∧ 1 < 2 ^ 32 ∧ Fits .int16 32767 1 1) ∧ (16383 < 2 ^ 16 ∧ Fits .float32 16383 1 1) :=
  ⟨⟨by decide, by decide, by decide, by decide, by decide⟩, by decide, by decide, by decide, by decide⟩

/-- -1.0 and the largest finite pattern are finite, and the first is less. -/
theorem witness_QuantizerIsMonotoneAndOddBelowTheClip :
    f32exp 0xBF800000#32 ≠ 255 ∧ f32exp 0x7F7FFFFF#32 ≠ 255 ∧ f32val 0xBF800000#32 ≤ f32val 0x7F7FFFFF#32 := by
  refine ⟨by decide, by decide, ?_⟩
  have h₁ : f32sign 0xBF800000#32 = true := by decide
  have h₂ : f32sign 0x7F7FFFFF#32 = false := by decide
  norm_num [f32val, h₁, h₂, f32exp, f32frac]

/-- The two clip boundaries of R181, a value below, and the two extreme codes. -/
theorem witness_QuantizerClipsAndIsNearest :
    (f32exp 0x3F7FFF00#32 ≠ 255 ∧ 32767.5 / 32768 ≤ f32val 0x3F7FFF00#32) ∧
    (f32exp 0xBF7FFF00#32 ≠ 255 ∧ f32val 0xBF7FFF00#32 ≤ -32767.5 / 32768) ∧
    |f32val 0x3F7FFEFF#32| < 32767.5 / 32768 ∧
    f32val 0xBF800000#32 = (-32768 : ℤ) / 32768 ∧ f32val 0x3F7FFE00#32 = (32767 : ℤ) / 32768 := by
  have h₁ : f32sign 0x3F7FFF00#32 = false := by decide
  have h₂ : f32sign 0xBF7FFF00#32 = true := by decide
  have h₃ : f32sign 0x3F7FFEFF#32 = false := by decide
  have h₄ : f32sign 0xBF800000#32 = true := by decide
  have h₅ : f32sign 0x3F7FFE00#32 = false := by decide
  refine ⟨⟨by decide, ?_⟩, ⟨by decide, ?_⟩, ?_, ?_, ?_⟩ <;>
    norm_num [f32val, h₁, h₂, h₃, h₄, h₅, f32exp, f32frac, abs_lt]

theorem witness_SmallSamplesQuantizeToZero :
    f32exp 0x377FFFFF#32 ≠ 255 ∧ |f32val 0x377FFFFF#32| < (2 : ℚ) ^ (-16 : ℤ) := by
  have h₁ : f32sign 0x377FFFFF#32 = false := by decide
  refine ⟨by decide, ?_⟩
  norm_num [f32val, h₁, f32exp, f32frac, abs_lt]

/-- The next channel, the next frame, the last sample, and a location not supplied. -/
theorem witness_Int16SampleStep :
    (srcRead (p1Sample 0) 0#16 0#32 = some 0#32 ∧ OutReady (p1Sample 0) (44 + 0 * 2) 2 ∧ 0 + 1 < 2 * 3 ∧ 0 + 1 < 2) ∧
    (srcRead (p1Sample 1) (p1Sample 1).c (p1Sample 1).f = some 0x3F000000#32 ∧ ¬(p1Sample 1).c.toNat + 1 < 2) ∧
    (srcRead (p1Sample 5) (p1Sample 5).c (p1Sample 5).f = some 0x40000000#32 ∧
      OutReady (p1Sample 5) (44 + (p1Sample 5).k.toNat * (p1Sample 5).lay.bps.toNat) 2 ∧
      ¬(p1Sample 5).k.toNat + 1 < (p1Sample 5).nch.toNat * (p1Sample 5).nfr.toNat) ∧
    srcRead { p1Sample 0 with src := [] } 0#16 0#32 = none :=
  ⟨⟨by decide, ⟨rfl, by decide⟩, by decide, by decide⟩, ⟨by decide, by decide⟩,
    ⟨by decide, ⟨rfl, by decide⟩, by decide⟩, rfl⟩

/-- P2 with a second channel: after sample (0, 0) the next channel is next. -/
def p2Stereo : State := { p2At .payload 0#4 0#48 0#32 with nch := 2#16 }

theorem witness_Float32SampleStep :
    (srcRead (p2At .payload 0#4 0#48 0#32) 0#16 0#32 = some 0x3FC00000#32 ∧
      OutReady (p2At .payload 0#4 0#48 0#32) (44 + 0 * 4) 4 ∧ 0 + 1 < 1 * 2 ∧ ¬0 + 1 < 1) ∧
    (srcRead (p2At .payload 0#4 1#48 1#32) 0#16 1#32 = some 0x80000000#32 ∧
      OutReady (p2At .payload 0#4 1#48 1#32) (44 + 1 * 4) 4 ∧ ¬1 + 1 < 1 * 2) ∧
    (srcRead p2Stereo 0#16 0#32 = some 0x3FC00000#32 ∧ OutReady p2Stereo (44 + 0 * 4) 4 ∧
      p2Stereo.k.toNat + 1 < p2Stereo.nch.toNat * p2Stereo.nfr.toNat ∧ p2Stereo.c.toNat + 1 < p2Stereo.nch.toNat) ∧
    srcRead { p2 with src := [] } p2.c p2.f = none :=
  ⟨⟨by decide, ⟨rfl, by decide⟩, by decide, by decide⟩, ⟨by decide, ⟨rfl, by decide⟩, by decide⟩,
    ⟨by decide, ⟨rfl, by decide⟩, by decide, by decide⟩, rfl⟩

/-- The quiet NaN and the signalling NaN of section 2.4, as the sample that is next. -/
theorem witness_NanSampleWritesNanCode :
    (srcRead { p1Sample 0 with src := [(0, 0xFFC00001#32)] } 0#16 0#32 = some 0xFFC00001#32 ∧
      f32exp 0xFFC00001#32 = 255 ∧ f32frac 0xFFC00001#32 ≠ 0 ∧
      OutReady { p1Sample 0 with src := [(0, 0xFFC00001#32)] } (44 + 0 * 2) 2) ∧
    f32exp 0x7F800001#32 = 255 ∧ f32frac 0x7F800001#32 ≠ 0 :=
  ⟨⟨by decide, by decide, by decide, rfl, by decide⟩, by decide, by decide⟩

theorem witness_HeaderAndSampleStepsIgnoreFmt :
    (EncTurn (p1Header 5) ∧ (p1Header 5).phase = .header) ∧ (EncTurn (p1Sample 2) ∧ (p1Sample 2).phase = .payload) :=
  ⟨⟨.inl rfl, rfl⟩, .inl rfl, rfl⟩

/-- The first and the last sample. -/
theorem witness_SamplePointerStaysInside :
    (Inv (p1Sample 0) ∧ (p1Sample 0).phase = .payload) ∧ (Inv (p1Sample 5) ∧ (p1Sample 5).phase = .payload) :=
  ⟨⟨p1Sample_inv 0 (by decide), rfl⟩, p1Sample_inv 5 (by decide), rfl⟩

/-- The files of P1's operands at two sample rates. -/
theorem witness_FileHoldsEverySample :
    variantOf 1#32 = some .int16 ∧ (∃ file, encodeFile 1#32 2 3 44100 (sampleOf p1) = some file) ∧
    (∃ file, encodeFile 1#32 2 3 8000 (sampleOf p1) = some file) ∧ variantOf 3#32 = some .float32 ∧
    (∃ file, encodeFile 3#32 1 2 8000 (sampleOf p2) = some file) :=
  ⟨rfl, ⟨_, rfl⟩, ⟨_, rfl⟩, rfl, ⟨_, rfl⟩⟩

/-- A step in each phase from a state that meets the invariant. -/
theorem witness_EveryStepKeepsTheInvariant :
    (Inv { p1 with phase := .check } ∧ step { p1 with phase := .check } = .next (p1Header 0)) ∧
    (Inv (p1Header 12) ∧ ∃ t, step (p1Header 12) = .next t) ∧ (Inv (p1Sample 1) ∧ ∃ t, step (p1Sample 1) = .next t) ∧
    (Inv p1Done ∧ ∃ t, step p1Done = .next t) ∧
    (Inv { p1 with phase := .error, fmt := 2#32 } ∧ ∃ t, step { p1 with phase := .error, fmt := 2#32 } = .next t) :=
  ⟨⟨p1_check_inv, rfl⟩, ⟨p1Header_inv 12 (by decide), _, rfl⟩, ⟨p1Sample_inv 1 (by decide), _, rfl⟩,
    ⟨p1Done_inv, _, rfl⟩, p1_error_inv, _, rfl⟩

theorem witness_NoStepFaults : Inv (p1Sample 5) := p1Sample_inv 5 (by decide)

theorem witness_SequencerHasNoOtherTransition :
    Inv (p1Sample 1) ∧ ¬HostTurn (p1Sample 1) .reset ∧ ∃ t, step (p1Sample 1) = .next t :=
  ⟨p1Sample_inv 1 (by decide), nofun, _, rfl⟩

theorem witness_EncodeOperandsAreLocked :
    (¬HostTurn (p1Header 5) .reset ∧ (p1Header 5).phase = .header ∧ ∃ t, step (p1Header 5) = .next t) ∧
    (¬HostTurn p1Done .reset ∧ p1Done.phase ≠ .idle ∧ ∃ t, step p1Done = .next t) :=
  ⟨⟨nofun, rfl, _, rfl⟩, nofun, by decide, _, rfl⟩

theorem witness_WrittenBytesNeverChange :
    (Inv (p1Sample 1) ∧ outByte (p1Sample 1) 0 = some 0x52#8 ∧ ∃ t, step (p1Sample 1) = .next t) ∧
    (Inv p1Done ∧ p1Done.phase = .done ∧ ∃ t, step p1Done = .next t) :=
  ⟨⟨p1Sample_inv 1 (by decide), rfl, _, rfl⟩, p1Done_inv, rfl, _, rfl⟩

theorem witness_BusyBlockAlwaysFinishes :
    (Inv { p1 with phase := .check } ∧ EncTurn { p1 with phase := .check } ∧ SrcCovers { p1 with phase := .check }) ∧
    (Inv (p1Header 12) ∧ EncTurn (p1Header 12) ∧ SrcCovers (p1Header 12)) ∧
    (Inv (p1Sample 5) ∧ EncTurn (p1Sample 5) ∧ SrcCovers (p1Sample 5)) ∧
    ∀ v : Variant, fitsCap p1.outCap (44 + p1.nch.toNat * p1.nfr.toNat * v.bytes) = true :=
  ⟨⟨p1_check_inv, .inl rfl, p1_covers⟩, ⟨p1Header_inv 12 (by decide), .inl rfl, p1_covers⟩,
    ⟨p1Sample_inv 5 (by decide), .inl rfl, p1_covers⟩, fun _ => rfl⟩

/-- The states of P1 have written a prefix of its file. -/
theorem p1Header_prefix : FilePrefix (p1Header 12) := by
  intro a ha
  have ha : a < 40 := ha
  have h : ∀ x < 40, outByte (p1Header 12) x = (fileImage (p1Header 12))[x]? := by decide
  exact h a ha

theorem witness_StableEncodeWritesTheFile :
    Inv (p1Header 12) ∧ FilePrefix (p1Header 12) ∧
    ((p1Header 12).phase ≠ .idle → ∀ c i w, ¬HostTurn (p1Header 12) (.sample c i w)) ∧
    ∃ t, step (p1Header 12) = .next t :=
  ⟨p1Header_inv 12 (by decide), p1Header_prefix, fun _ _ _ _ => nofun, _, rfl⟩

/-- P1 with START given, and with an unrecognised selector. -/
theorem witness_EncodeReachesDoneWithTheFile :
    (AtRest { p1 with agenda := [startEvent] } ∧ SrcCovers { p1 with agenda := [startEvent] } ∧ p1.phase = .idle ∧
      ∃ file, encodeFile p1.fmt p1.nch.toNat p1.nfr.toNat p1.srate.toNat (sampleOf p1) = some file ∧
        fitsCap p1.outCap file.length = true) ∧
    encodeFile 2#32 p1.nch.toNat p1.nfr.toNat p1.srate.toNat (sampleOf p1) = none :=
  ⟨⟨⟨rfl, rfl, rfl, rfl, rfl, rfl⟩, p1_covers, rfl, _, rfl, rfl⟩, rfl⟩

end Sys2Proof.Tests
end

/-! SUPPORT. One equation of `step` per kind of event: ENC's turn by phase, HOST's turn by action. Every
proof about a step goes through these. -/

namespace Sys2Proof.Machine

section StepEquations

variable {s : State}

theorem encTurn_or_hostTurn (s : State) : EncTurn s ∨ ∃ a, HostTurn s a := by
  unfold EncTurn HostTurn
  rcases s.agenda with _ | ⟨_ | _, _⟩ <;> simp

theorem fetch_of_encTurn (h : EncTurn s) : fetch s = encNext s := by
  unfold EncTurn at h
  unfold fetch
  split <;> simp_all

theorem fetch_of_hostTurn {a : HostAction} (h : HostTurn s a) : fetch s = hostNext a := by
  unfold HostTurn at h
  unfold fetch
  split <;> simp_all

theorem step_of_fetch_act {a : HostAction} (h : fetch s = .act a) : step s = hostAct (taken s) a := by
  simp only [step, h]

theorem step_of_decode_ok {f : Format} {w : Word} {i : Instr} (hf : fetch s = .op f w) (hd : decode f w = .ok i) :
    step s = exec i (taken s) := by
  simp only [step, hf, hd]

theorem step_of_decode_error {f : Format} {w : Word} {u : Unlisted} (hf : fetch s = .op f w)
    (hd : decode f w = .error u) : step s = unlisted u (taken s) := by
  simp only [step, hf, hd]

/-! ENC's turn. -/

/-- ENC has no step in IDLE, DONE and ERROR (60_exceptions.md R225, log 4). -/
theorem step_enc_rest (he : EncTurn s) (hp : s.phase = .idle ∨ s.phase = .done ∨ s.phase = .error) :
    step s = .next (taken s) := by
  have hf : fetch s = .rest := by
    rw [fetch_of_encTurn he]
    rcases hp with hp | hp | hp <;> simp only [encNext, hp]
  simp only [step, hf]

theorem fetch_enc_check (he : EncTurn s) (hp : s.phase = .check) : fetch s = .op .cmd s.fmt := by
  simp only [fetch_of_encTurn he, encNext, hp]

/-- The command that selects a variant (30_encoding.md R99). -/
def Variant.encInstr : Variant → Instr
  | .int16 => .encI16
  | .float32 => .encF32

/-- The sample step of a variant (R99). -/
def Variant.smpInstr : Variant → Instr
  | .int16 => .smpQ16
  | .float32 => .smpF32

theorem decode_cmd_of_variantOf {w : Word} {v : Variant} (h : variantOf w = some v) :
    decode .cmd w = .ok v.encInstr := by
  unfold variantOf at h
  split_ifs at h with h₁ h₂ <;> obtain rfl := Option.some.inj h
  · subst h₁; rfl
  · subst h₂; rfl

theorem decode_cmd_of_variantOf_none {w : Word} (h : variantOf w = none) :
    decode .cmd w = .error .unknownSelector := by
  unfold variantOf at h
  split_ifs at h with h₁ h₂
  simp only [decode, decodeCmd, h₁, h₂, if_false]

/-- CHECK on a recognised selector (40_commands.md R122). -/
theorem step_enc_check {v : Variant} (he : EncTurn s) (hp : s.phase = .check) (hv : variantOf s.fmt = some v) :
    step s = checkStep v (taken s) := by
  rw [step_of_decode_ok (fetch_enc_check he hp) (decode_cmd_of_variantOf hv)]
  cases v <;> rfl

/-- CHECK on an unrecognised selector (60_exceptions.md R213). -/
theorem step_enc_check_unsupported (he : EncTurn s) (hp : s.phase = .check) (hv : variantOf s.fmt = none) :
    step s = .next (raiseUnsupportedFormat (taken s)) :=
  step_of_decode_error (fetch_enc_check he hp) (decode_cmd_of_variantOf_none hv)

theorem fetch_enc_header (he : EncTurn s) (hp : s.phase = .header) : fetch s = .op .hstep (s.hp.setWidth 32) := by
  simp only [fetch_of_encTurn he, encNext, hp]

/-- The bytes of row h of the header table (41_header_marshaller.md R143). -/
def rowBytes (s : State) : Nat → List Byte
  | 0 => tagBytes .riff
  | 1 => leBytes 4 (s.lay.flen.toNat - 8)
  | 2 => tagBytes .wave
  | 3 => tagBytes .fmt
  | 4 => leBytes 4 16
  | 5 => leBytes 2 s.lay.afmt.toNat
  | 6 => leBytes 2 s.nch.toNat
  | 7 => leBytes 4 s.srate.toNat
  | 8 => leBytes 4 s.lay.bpsec.toNat
  | 9 => leBytes 2 s.lay.bpf.toNat
  | 10 => leBytes 2 s.lay.bits.toNat
  | 11 => tagBytes .data
  | 12 => leBytes 4 s.lay.dlen.toNat
  | _ => []

/-- What follows row h: the next row, and after the last one the first sample or DONE (R158). -/
def afterRow (h : Nat) (s : State) : State :=
  if h < 12 then s.toHeader (BitVec.ofNat 4 (h + 1)) else afterHeader s

/-- HP selects H0 to H12, and each of them writes its row of the header table at its offset. -/
theorem exists_headerInstr {hp : BitVec 4} (h : hp.toNat ≤ 12) :
    ∃ i, decode .hstep (hp.setWidth 32) = .ok i ∧
      ∀ s, exec i s = storeBytes s (headerOffset hp.toNat) (rowBytes s hp.toNat) (afterRow hp.toNat) := by
  obtain ⟨n, hn, rfl⟩ : ∃ n, n ≤ 12 ∧ hp = BitVec.ofNat 4 n := ⟨hp.toNat, h, by simp⟩
  interval_cases n <;> exact ⟨_, rfl, fun _ => rfl⟩

/-- A header step writes its row of the header table and goes on (R146 to R158). -/
theorem step_enc_header (he : EncTurn s) (hp : s.phase = .header) (hh : s.hp.toNat ≤ 12) :
    step s = storeBytes (taken s) (headerOffset s.hp.toNat) (rowBytes s s.hp.toNat) (afterRow s.hp.toNat) := by
  obtain ⟨i, hd, hi⟩ := exists_headerInstr hh
  rw [step_of_decode_ok (fetch_enc_header he hp) hd]
  exact hi (taken s)

/-- HP = 13, 14, 15 select nothing (30_encoding.md R93, log 14). -/
theorem step_enc_header_reserved (he : EncTurn s) (hp : s.phase = .header) (hh : 12 < s.hp.toNat) :
    step s = .refused .reservedHeaderStep := by
  have hd : decode .hstep (s.hp.setWidth 32) = .error .headerStepReserved := by
    generalize s.hp = h at hh
    obtain ⟨n, hn, hn', rfl⟩ : ∃ n, 12 < n ∧ n < 16 ∧ h = BitVec.ofNat 4 n := ⟨h.toNat, hh, h.isLt, by simp⟩
    interval_cases n <;> rfl
  rw [step_of_decode_error (fetch_enc_header he hp) hd]
  rfl

theorem fetch_enc_payload (he : EncTurn s) (hp : s.phase = .payload) :
    fetch s = .op .wsel (s.lay.wsel.setWidth 32) := by
  simp only [fetch_of_encTurn he, encNext, hp]

/-- Every value of WSEL is the writer select of a variant (30_encoding.md R99). -/
theorem exists_wsel_eq (b : BitVec 1) : ∃ v : Variant, b = v.wsel := by
  rcases BitVec.eq_zero_or_eq_one b with rfl | rfl
  · exact ⟨.int16, rfl⟩
  · exact ⟨.float32, rfl⟩

/-- A sample step runs the writer that WSEL selects (43_payload_writers.md R192, R196). -/
theorem step_enc_payload {v : Variant} (he : EncTurn s) (hp : s.phase = .payload) (hv : s.lay.wsel = v.wsel) :
    step s = sampleStep (taken s) (sampleBytes v) := by
  have hd : decode .wsel (s.lay.wsel.setWidth 32) = .ok v.smpInstr := by
    rw [hv]
    cases v <;> rfl
  rw [step_of_decode_ok (fetch_enc_payload he hp) hd]
  cases v <;> rfl

/-! HOST's turn. -/

/-- What a word written to CTRL does (10_state.md R27). -/
def ctrlEffect (w : Word) (s : State) : State :=
  match w.toNat % 4 with
  | 1 => startCommand s
  | 2 => acknowledge s
  | _ => s

/-- The low two bits of a word as a number. -/
theorem toNat_mod_four (w : Word) : w.toNat % 4 = (w.getLsbD 0).toNat + 2 * (w.getLsbD 1).toNat := by
  have bit_toNat (i : Nat) : (w.getLsbD i).toNat = w.toNat / 2 ^ i % 2 := by
    rw [BitVec.getLsbD, Nat.toNat_testBit]
  rw [bit_toNat, bit_toNat]
  omega

theorem step_ctrlWrite {offset size : Nat} {w : Word} (h : HostTurn s (.regWrite offset size w))
    (hr : regAt offset size = some .ctrl) : step s = .next (ctrlEffect w (taken s)) := by
  have hf : fetch s = .op .ctrl w := by simp only [fetch_of_hostTurn h, hostNext, hr, if_true]
  have hlt : w.toNat % 4 < 4 := Nat.mod_lt _ (by omega)
  unfold step ctrlEffect
  simp only [hf, decode, decodeCtrl]
  generalize w.toNat % 4 = n at hlt
  interval_cases n <;> rfl

theorem step_regWrite {offset size : Nat} {v : Word} {r : Reg} (h : HostTurn s (.regWrite offset size v))
    (hr : regAt offset size = some r) (hc : r ≠ .ctrl) : step s = .next (regStore (taken s) r v) := by
  have hf : fetch s = .act (.regWrite offset size v) := by simp [fetch_of_hostTurn h, hostNext, hr, hc]
  simp only [step_of_fetch_act hf, hostAct, hr]

theorem step_regRead {offset size : Nat} {r : Reg} (h : HostTurn s (.regRead offset size))
    (hr : regAt offset size = some r) :
    step s = .next ((taken s).setReply (some (.word (regValue s r)))) := by
  simp only [step_of_fetch_act (fetch_of_hostTurn h), hostAct, hr]
  cases r <;> rfl

theorem step_regWrite_refused {offset size : Nat} {v : Word} (h : HostTurn s (.regWrite offset size v))
    (hr : regAt offset size = none) : step s = .refused .badRegisterAccess := by
  have hf : fetch s = .act (.regWrite offset size v) := by simp [fetch_of_hostTurn h, hostNext, hr]
  simp only [step_of_fetch_act hf, hostAct, hr]

theorem step_regRead_refused {offset size : Nat} (h : HostTurn s (.regRead offset size))
    (hr : regAt offset size = none) : step s = .refused .badRegisterAccess := by
  simp only [step_of_fetch_act (fetch_of_hostTurn h), hostAct, hr]

/-- Outside IDLE a register write stores nothing (R25, R26). -/
theorem regStore_of_ne_idle {r : Reg} {v : Word} (h : s.phase ≠ .idle) : regStore s r v = s := by
  rcases regStore_cases s r v with hs | ⟨hi, -⟩
  · exact hs
  · exact absurd hi h

/-- In IDLE it stores an operand (R25). -/
theorem regStore_of_idle {r : Reg} {v : Word} (h : s.phase = .idle) : regStore s r v = storeOperand s v r := by
  simp only [regStore, h]

/-- A register write or read of HOST that is no CTRL write, and every other action, runs as `hostAct`. -/
theorem step_hostAct_or_ctrlWrite {a : HostAction} (h : HostTurn s a) :
    step s = hostAct (taken s) a ∨ ∃ w, step s = .next (ctrlEffect w (taken s)) := by
  cases a with
  | regWrite offset size w =>
    by_cases hr : regAt offset size = some .ctrl
    · exact .inr ⟨w, step_ctrlWrite h hr⟩
    · exact .inl (step_of_fetch_act (by simp only [fetch_of_hostTurn h, hostNext, hr, if_false]))
  | regRead offset size => exact .inl (step_of_fetch_act (fetch_of_hostTurn h))
  | outRead addr n => exact .inl (step_of_fetch_act (fetch_of_hostTurn h))
  | sample c i w => exact .inl (step_of_fetch_act (fetch_of_hostTurn h))
  | reset => exact .inl (step_of_fetch_act (fetch_of_hostTurn h))

end StepEquations

end Sys2Proof.Machine

/-! SUPPORT. The layout as numbers (41_header_marshaller.md R142): the widths of 10_state.md R33 hold every
product, so no latched length is truncated. -/

namespace Sys2Proof.Machine

section LayoutNumbers

theorem Variant.bytes_cases (v : Variant) : v.bytes = 2 ∨ v.bytes = 4 := by
  cases v
  · exact .inl rfl
  · exact .inr rfl

theorem Variant.wsel_injective : Function.Injective Variant.wsel
  | .int16, .int16, _ => rfl
  | .float32, .float32, _ => rfl

@[simp] theorem sampleBytes_length (v : Variant) (w : Word) : (sampleBytes v w).length = v.bytes := by
  cases v <;> exact leBytes_length ..

/-- N fits its counter K with room to spare (10_state.md R30). -/
theorem sampleCount_lt (s : State) : sampleCount s < 2 ^ 48 := by
  calc sampleCount s < 2 ^ 16 * 2 ^ 32 := Nat.mul_lt_mul'' s.nch.isLt s.nfr.isLt
    _ = 2 ^ 48 := by norm_num

variable (v : Variant) (nch : BitVec 16) (nfr srate : BitVec 32)

@[simp] theorem Layout.of_wsel : (Layout.of v nch nfr srate).wsel = v.wsel := rfl

@[simp] theorem Layout.of_bps_toNat : (Layout.of v nch nfr srate).bps.toNat = v.bytes := by
  cases v <;> rfl

@[simp] theorem Layout.of_flen_toNat :
    (Layout.of v nch nfr srate).flen.toNat = 44 + nch.toNat * nfr.toNat * v.bytes := by
  have hN : nch.toNat * nfr.toNat ≤ (2 ^ 16 - 1) * (2 ^ 32 - 1) :=
    Nat.mul_le_mul (by have := nch.isLt; omega) (by have := nfr.isLt; omega)
  refine Nat.mod_eq_of_lt ?_
  rcases v.bytes_cases with hv | hv <;> rw [hv] <;> omega

end LayoutNumbers

/-! What the steps of an encode leave alone: a change of SEQ and its counters. -/

/-- From s to t nothing but SEQ with its counters HP, K, F and C changed. -/
def OnlySeqChanged (s t : State) : Prop := ∃ p h k f c, t = { s with phase := p, hp := h, k := k, f := f, c := c }

theorem OnlySeqChanged.operands_eq {s t : State} (h : OnlySeqChanged s t) :
    t.fmt = s.fmt ∧ t.nch = s.nch ∧ t.nfr = s.nfr ∧ t.srate = s.srate := by
  obtain ⟨p, hp, k, f, c, rfl⟩ := h
  exact ⟨rfl, rfl, rfl, rfl⟩

theorem OnlySeqChanged.lay_eq {s t : State} (h : OnlySeqChanged s t) : t.lay = s.lay := by
  obtain ⟨p, hp, k, f, c, rfl⟩ := h
  rfl

theorem OnlySeqChanged.src_eq {s t : State} (h : OnlySeqChanged s t) : t.src = s.src := by
  obtain ⟨p, hp, k, f, c, rfl⟩ := h
  rfl

theorem advanceSample_onlySeqChanged (s : State) : OnlySeqChanged s (advanceSample s) := by
  obtain ⟨p, k, f, c, h⟩ := advanceSample_frame s
  exact ⟨p, s.hp, k, f, c, h⟩

theorem afterRow_onlySeqChanged (h : Nat) (s : State) : OnlySeqChanged s (afterRow h s) := by
  unfold afterRow
  split_ifs
  · exact ⟨.header, _, s.k, s.f, s.c, rfl⟩
  · obtain ⟨p, k, f, c, h⟩ := afterHeader_frame s
    exact ⟨p, s.hp, k, f, c, h⟩

/-! What one step can be. -/

/-- u's OUT with the bytes bs at a. -/
def State.withBytes (u : State) (m : Memory) (a : Nat) (bs : List Byte) : State :=
  u.setOut (some (Memory.writeBytes m a bs))

/-- Everything a step other than reset can make of the state u that it starts from, the event already taken
off the agenda (10_state.md R30, 40_commands.md R127). -/
inductive Transition (u : State) : State → Prop
  /-- nothing of the block changes: ENC rests, HOST reads or changes its sample data, a write is ignored -/
  | hostSide (d : SrcData) (y : Option Reply) (hd : Cells.wf u.src → Cells.wf d) :
      Transition u ((u.setSrc d).setReply y)
  /-- HOST writes operand registers in IDLE (R25) -/
  | operand (fmt : BitVec 32) (nch : BitVec 16) (nfr srate : BitVec 32) (hp : u.phase = .idle) :
      Transition u ((((u.setFmt fmt).setNch nch).setNfr nfr).setSrate srate)
  /-- START in IDLE (R121) -/
  | start (hp : u.phase = .idle) : Transition u (u.toPhase .check)
  /-- ACK in DONE or ERROR (R125) -/
  | ack (hp : u.phase = .done ∨ u.phase = .error) :
      Transition u ((((u.setOut none).setLay Layout.zero).clearCounters).toPhase .idle)
  /-- CHECK raises `UnsupportedFormat` (R213) -/
  | unsupported (hp : u.phase = .check) (hv : variantOf u.fmt = none) : Transition u (raiseUnsupportedFormat u)
  /-- CHECK latches the layout and allocates OUT (R122) -/
  | check (v : Variant) (hp : u.phase = .check) (hv : variantOf u.fmt = some v)
      (hcap : fitsCap u.outCap (Layout.of v u.nch u.nfr u.srate).flen.toNat = true) :
      Transition u (((u.setLay (Layout.of v u.nch u.nfr u.srate)).setOut (some [])).toHeader 0#4)
  /-- a header step writes its row (R146 to R158) -/
  | header (m : Memory) (hp : u.phase = .header) (hh : u.hp.toNat ≤ 12) (hm : u.out = some m)
      (hfit : headerOffset u.hp.toNat + (rowBytes u u.hp.toNat).length ≤ u.lay.flen.toNat) :
      Transition u (afterRow u.hp.toNat (u.withBytes m (headerOffset u.hp.toNat) (rowBytes u u.hp.toNat)))
  /-- a sample step writes its sample (R192) -/
  | sample (v : Variant) (w : Word) (m : Memory) (hp : u.phase = .payload) (hv : u.lay.wsel = v.wsel)
      (hw : srcRead u u.c u.f = some w) (hm : u.out = some m)
      (hfit : samplePointer u + v.bytes ≤ u.lay.flen.toNat) :
      Transition u (advanceSample (u.withBytes m (samplePointer u) (sampleBytes v w)))

theorem Transition.refl (u : State) : Transition u u := .hostSide u.src u.reply id

theorem regStore_transition (u : State) (r : Reg) (v : Word) : Transition u (regStore u r v) := by
  rcases regStore_cases u r v with h | ⟨hp, h | h | h | h⟩ <;> rw [h]
  · exact .refl u
  · exact .operand v u.nch u.nfr u.srate hp
  · exact .operand u.fmt (v.extractLsb' 0 16) u.nfr u.srate hp
  · exact .operand u.fmt u.nch v u.srate hp
  · exact .operand u.fmt u.nch u.nfr v hp

theorem startCommand_transition (u : State) : Transition u (startCommand u) := by
  unfold startCommand
  split
  · exact .start ‹_›
  all_goals exact .refl u

theorem acknowledge_transition (u : State) : Transition u (acknowledge u) := by
  unfold acknowledge
  split
  · exact .ack (.inl ‹_›)
  · exact .ack (.inr ‹_›)
  all_goals exact .refl u

theorem ctrlEffect_transition (w : Word) (u : State) : Transition u (ctrlEffect w u) := by
  unfold ctrlEffect
  split
  · exact startCommand_transition u
  · exact acknowledge_transition u
  · exact .refl u

theorem hostTurn_transition {s t : State} {a : HostAction} (ha : HostTurn s a) (h : step s = .next t) :
    (a = .reset ∧ t = resetBlock (taken s)) ∨ Transition (taken s) t := by
  rcases step_hostAct_or_ctrlWrite ha with hs | ⟨w, hs⟩
  · rw [hs] at h
    rcases hostAct_next_cases h with ⟨r, v, rfl⟩ | ⟨y, rfl⟩ | ⟨c, i, w, -, rfl⟩ | hr
    · exact .inr (regStore_transition _ r v)
    · exact .inr (.hostSide (taken s).src y id)
    · exact .inr (.hostSide _ (taken s).reply fun hd => srcChange_wf hd c i w)
    · exact .inl hr
  · obtain rfl : ctrlEffect w (taken s) = t := by simpa [hs] using h
    exact .inr (ctrlEffect_transition w _)

theorem encTurn_transition {s t : State} (he : EncTurn s) (h : step s = .next t) : Transition (taken s) t := by
  rcases hp : s.phase
  case idle | done | error =>
    obtain rfl : taken s = t := by simpa [step_enc_rest he (by simp [hp])] using h
    exact .refl _
  case check =>
    rcases hv : variantOf s.fmt with _ | v
    · obtain rfl : raiseUnsupportedFormat (taken s) = t := by simpa [step_enc_check_unsupported he hp hv] using h
      exact .unsupported hp hv
    · rw [step_enc_check he hp hv] at h
      obtain ⟨hcap, rfl⟩ := checkStep_next_iff.1 h
      exact .check v hp hv hcap
  case header =>
    rcases Nat.lt_or_ge 12 s.hp.toNat with hh | hh
    · simp [step_enc_header_reserved he hp hh] at h
    · rw [step_enc_header he hp hh] at h
      obtain ⟨m, hm, hfit, rfl⟩ := storeBytes_next_iff.1 h
      exact .header m hp hh hm hfit
  case payload =>
    obtain ⟨v, hv⟩ := exists_wsel_eq s.lay.wsel
    rw [step_enc_payload he hp hv] at h
    obtain ⟨w, m, hw, hm, hfit, rfl⟩ := sampleStep_next_iff.1 h
    exact .sample v w m hp hv hw hm (by simpa using hfit)

/-- A step that answers a next state is the reset event or one of the transitions. -/
theorem step_next_cases {s t : State} (h : step s = .next t) :
    (HostTurn s .reset ∧ t = resetBlock (taken s)) ∨ Transition (taken s) t := by
  rcases encTurn_or_hostTurn s with he | ⟨a, ha⟩
  · exact .inr (encTurn_transition he h)
  · rcases hostTurn_transition ha h with ⟨rfl, ht⟩ | ht
    · exact .inl ⟨ha, ht⟩
    · exact .inr ht

/-- A step other than reset is one of the transitions. -/
theorem transition_of_step {s t : State} (hr : ¬HostTurn s .reset) (h : step s = .next t) :
    Transition (taken s) t :=
  (step_next_cases h).resolve_left fun ⟨hreset, _⟩ => hr hreset

end Sys2Proof.Machine

/-! The header row by row: row h of the table stands at its offset in the 44-byte image
(41_header_marshaller.md R143, R145). -/

namespace Sys2Proof.Machine

section HeaderRows

variable (s : State)

/-- The rows of the header table before row h. -/
def rowsBefore (h : Nat) : List Byte := (List.range h).flatMap (rowBytes s)

theorem rowsBefore_succ (h : Nat) : rowsBefore s (h + 1) = rowsBefore s h ++ rowBytes s h := by
  simp [rowsBefore, List.range_succ]

/-- Each row begins where the one before it ends. -/
theorem headerOffset_succ {h : Nat} (hh : h ≤ 12) : headerOffset (h + 1) = headerOffset h + (rowBytes s h).length := by
  interval_cases h <;> simp [headerOffset, rowBytes]

theorem rowsBefore_length {h : Nat} (hh : h ≤ 13) : (rowsBefore s h).length = headerOffset h := by
  induction h with
  | zero => rfl
  | succ h ih => rw [rowsBefore_succ, List.length_append, ih (by omega), headerOffset_succ s (by omega)]

theorem headerImage_eq_rowsBefore : headerImage s = rowsBefore s 13 := by
  simp [headerImage, header, rowsBefore, List.range_succ, rowBytes]

theorem rowsBefore_isPrefix (h n : Nat) : rowsBefore s h <+: rowsBefore s (h + n) := by
  induction n with
  | zero => exact List.prefix_rfl
  | succ n ih => exact ih.trans (rowsBefore_succ s (h + n) ▸ List.prefix_append ..)

theorem headerImage_getElem?_row {h i : Nat} (hh : h ≤ 12) (hi : i < (rowBytes s h).length) :
    (headerImage s)[headerOffset h + i]? = (rowBytes s h)[i]? := by
  have hlen : (rowsBefore s h).length = headerOffset h := rowsBefore_length s (by omega)
  obtain ⟨rest, hrest⟩ : rowsBefore s (h + 1) <+: rowsBefore s (h + 1 + (12 - h)) := rowsBefore_isPrefix s _ _
  rw [headerImage_eq_rowsBefore, show 13 = h + 1 + (12 - h) by omega, ← hrest, rowsBefore_succ, List.append_assoc,
    ← hlen, List.getElem?_append_right (by omega), Nat.add_sub_cancel_left, List.getElem?_append_left hi]

end HeaderRows

/-! The invariant. -/

section Invariant

variable {s u : State}

/-- What the layout of an encode says in numbers (R142). -/
theorem Live.exists_variant (h : Live s) :
    ∃ v : Variant, s.lay.wsel = v.wsel ∧ s.lay.bps.toNat = v.bytes ∧
      s.lay.flen.toNat = 44 + sampleCount s * v.bytes := by
  obtain ⟨v, -, hl⟩ := h.layout
  exact ⟨v, by simp [hl], by simp [hl], by simp [hl, sampleCount]⟩

theorem Live.flen_eq (h : Live s) : s.lay.flen.toNat = 44 + sampleCount s * s.lay.bps.toNat := by
  obtain ⟨v, -, hbps, hflen⟩ := h.exists_variant
  rw [hflen, hbps]

/-- The writer that WSEL selects writes BPS bytes (R99, R141). -/
theorem Live.bps_eq {v : Variant} (h : Live s) (hv : s.lay.wsel = v.wsel) : s.lay.bps.toNat = v.bytes := by
  obtain ⟨v', hv', hbps, -⟩ := h.exists_variant
  rw [hbps, Variant.wsel_injective (hv.symm.trans hv')]

/-- The sample that is next lies in a frame of the rectangle (10_state.md R31). -/
theorem Counting.frame_lt (h : Counting s) : s.f.toNat < s.nfr.toNat := by
  have hlt : s.nch.toNat * s.f.toNat < s.nch.toNat * s.nfr.toNat :=
    calc s.nch.toNat * s.f.toNat ≤ s.k.toNat := by rw [h.split, Nat.mul_comm]; omega
      _ < s.nch.toNat * s.nfr.toNat := h.count
  exact Nat.lt_of_mul_lt_mul_left hlt

/-! A change of HOST's side keeps what holds of the block; a block at rest also keeps it under a change of an
operand or of PHASE. -/

theorem AtRest.setHostSide (h : AtRest s) (es : List Event) (d : SrcData) (y : Option Reply) :
    AtRest (((s.setAgenda es).setSrc d).setReply y) :=
  ⟨h.lay, h.out, h.hp, h.k, h.f, h.c⟩

theorem AtRest.setOperands (h : AtRest s) (fmt : BitVec 32) (nch : BitVec 16) (nfr srate : BitVec 32) :
    AtRest ((((s.setFmt fmt).setNch nch).setNfr nfr).setSrate srate) :=
  ⟨h.lay, h.out, h.hp, h.k, h.f, h.c⟩

theorem AtRest.toPhase (h : AtRest s) (p : Phase) : AtRest (s.toPhase p) :=
  ⟨h.lay, h.out, h.hp, h.k, h.f, h.c⟩

theorem Live.setHostSide (h : Live s) (es : List Event) (d : SrcData) (y : Option Reply) :
    Live (((s.setAgenda es).setSrc d).setReply y) :=
  ⟨h.layout, h.room, h.buffer, h.headerBytes⟩

theorem Counting.setHostSide (h : Counting s) (es : List Event) (d : SrcData) (y : Option Reply) :
    Counting (((s.setAgenda es).setSrc d).setReply y) :=
  ⟨h.count, h.split, h.channel⟩

/-- The invariant does not speak of the agenda, the reply, or what the sample data holds. -/
theorem Inv.setHostSide (h : Inv s) (es : List Event) {d : SrcData} (hd : Cells.wf d) (y : Option Reply) :
    Inv (((s.setAgenda es).setSrc d).setReply y) := by
  refine ⟨hd, ?_⟩
  have hphase := h.phase
  unfold PhaseInv at hphase ⊢
  simp only [State.setReply_phase, State.setSrc_phase, State.setAgenda_phase]
  cases hp : s.phase <;> simp only [hp] at hphase ⊢
  case idle | check | error => exact hphase.setHostSide es d y
  case header => exact ⟨hphase.1, hphase.2.setHostSide es d y⟩
  case payload => exact ⟨hphase.1.setHostSide es d y, hphase.2.setHostSide es d y⟩
  case done => exact hphase.setHostSide es d y

theorem Inv.taken (h : Inv s) : Inv (taken s) := h.setHostSide s.agenda.tail h.src s.reply

theorem Inv.atRest (h : Inv s) (hp : s.phase = .idle ∨ s.phase = .check ∨ s.phase = .error) : AtRest s := by
  have hphase := h.phase
  unfold PhaseInv at hphase
  rcases hp with hp | hp | hp <;> simpa only [hp] using hphase

theorem Inv.header (h : Inv s) (hp : s.phase = .header) : s.hp.toNat ≤ 12 ∧ Live s := by
  simpa only [PhaseInv, hp] using h.phase

theorem Inv.payload (h : Inv s) (hp : s.phase = .payload) : Counting s ∧ Live s := by
  simpa only [PhaseInv, hp] using h.phase

/-- A phase that holds no encode asks for `AtRest` alone. -/
theorem phaseInv_of_atRest (h : AtRest s) (hp : s.phase = .idle ∨ s.phase = .check ∨ s.phase = .error) :
    PhaseInv s := by
  unfold PhaseInv
  rcases hp with hp | hp | hp <;> simpa only [hp] using h

/-- Bytes written at the write pointer keep an encode live, when SEQ moves the pointer past them and the
header bytes among them are the header's (20_memory.md R67). -/
theorem Live.write {t : State} {m : Memory} {bs : List Byte} (h : Live u) (hm : u.out = some m)
    (ht : OnlySeqChanged (u.withBytes m (bytesWritten u) bs) t)
    (hw : bytesWritten t = bytesWritten u + bs.length)
    (hbs : ∀ i, i < bs.length → bytesWritten u + i < 44 → bs[i]? = (headerImage u)[bytesWritten u + i]?) :
    Live t := by
  obtain ⟨m', hm', hwf, hwritten⟩ := h.buffer
  obtain rfl : m = m' := by simpa [hm] using hm'
  obtain ⟨p, hp, k, f, c, ht⟩ := ht
  have hout : t.out = some (Memory.writeBytes m (bytesWritten u) bs) := by rw [ht]; rfl
  have himage : headerImage t = headerImage u := by rw [ht]; rfl
  refine ⟨by rw [ht]; exact h.layout, by rw [ht]; exact h.room,
    ⟨_, hout, Memory.wf_writeBytes hwf _ _, fun a => ?_⟩, fun a ha h44 => ?_⟩
  · rw [hw, Memory.get?_writeBytes]
    split_ifs with hin
    · simp; omega
    · rw [hwritten]; omega
  · rw [himage]
    rcases Nat.lt_or_ge a (bytesWritten u) with hold | hnew
    · have hsame : outByte t a = outByte u a := by
        simp only [outByte, hout, hm, Option.bind_some, Memory.get?_writeBytes_outside (.inl hold)]
      rw [hsame, h.headerBytes a hold h44]
    · obtain ⟨i, rfl⟩ := Nat.exists_eq_add_of_le hnew
      have hi : i < bs.length := by omega
      simp only [outByte, hout, Option.bind_some, Memory.get?_writeBytes_inside hi, hbs i hi h44]

/-! The header steps. -/

theorem bytesWritten_of_header (hp : u.phase = .header) : bytesWritten u = headerOffset u.hp.toNat := by
  simp only [bytesWritten, hp]

theorem bytesWritten_afterHeader (hflen : u.lay.flen.toNat = 44 + sampleCount u * u.lay.bps.toNat) :
    bytesWritten (afterHeader u) = 44 := by
  unfold afterHeader
  split_ifs with hN
  · simp [bytesWritten, samplePointer]
  · simp [bytesWritten, hflen, Nat.eq_zero_of_not_pos hN]

theorem bytesWritten_afterRow {h : Nat} (hh : h ≤ 12)
    (hflen : u.lay.flen.toNat = 44 + sampleCount u * u.lay.bps.toNat) :
    bytesWritten (afterRow h u) = headerOffset (h + 1) := by
  unfold afterRow
  split_ifs with hlast
  · simp only [bytesWritten, State.toHeader_phase, State.toHeader_hp]
    rw [BitVec.toNat_ofNat, Nat.mod_eq_of_lt (by omega)]
  · obtain rfl : h = 12 := by omega
    exact bytesWritten_afterHeader hflen

/-- At the first sample the counters agree (R31). -/
theorem counting_firstSample (hN : 0 < sampleCount u) : Counting (u.toPayload 0#48 0#32 0#16) :=
  ⟨hN, by simp, Nat.pos_of_mul_pos_right hN⟩

theorem phaseInv_afterRow {h : Nat} (hh : h ≤ 12) (hlive : Live (afterRow h u)) : PhaseInv (afterRow h u) := by
  unfold afterRow afterHeader at hlive ⊢
  split_ifs at hlive ⊢ with hlast hN
  · refine ⟨?_, hlive⟩
    simp only [State.toHeader_hp, BitVec.toNat_ofNat]
    omega
  · exact ⟨counting_firstSample hN, hlive⟩
  · exact hlive

theorem headerStep_phaseInv {m : Memory} (h : Live u) (hp : u.phase = .header) (hh : u.hp.toNat ≤ 12)
    (hm : u.out = some m) :
    PhaseInv (afterRow u.hp.toNat (u.withBytes m (headerOffset u.hp.toNat) (rowBytes u u.hp.toNat))) := by
  have hwp := bytesWritten_of_header hp
  rw [← hwp]
  refine phaseInv_afterRow hh (h.write hm (afterRow_onlySeqChanged _ _) ?_ fun i hi _ => ?_)
  · rw [bytesWritten_afterRow (u := u.withBytes m _ _) hh h.flen_eq, headerOffset_succ u hh, hwp]
  · rw [hwp, headerImage_getElem?_row u hh hi]

/-! The sample steps. -/

theorem bytesWritten_of_payload (hp : u.phase = .payload) : bytesWritten u = samplePointer u := by
  simp only [bytesWritten, hp]

/-- A counter below a bound that its width holds counts up without wrapping. -/
theorem toNat_succ_of_lt {n : Nat} {x : BitVec n} {b : Nat} (h : x.toNat + 1 < b) (hb : b ≤ 2 ^ n) :
    (x + 1#n).toNat = x.toNat + 1 := by
  rw [BitVec.toNat_add, BitVec.toNat_ofNat, Nat.add_mod_mod, Nat.mod_eq_of_lt (by omega)]

theorem k_succ_toNat (h : u.k.toNat + 1 < sampleCount u) : (u.k + 1#48).toNat = u.k.toNat + 1 :=
  toNat_succ_of_lt h (sampleCount_lt u).le

theorem bytesWritten_advanceSample (hk : u.k.toNat < sampleCount u)
    (hflen : u.lay.flen.toNat = 44 + sampleCount u * u.lay.bps.toNat) :
    bytesWritten (advanceSample u) = samplePointer u + u.lay.bps.toNat := by
  have hsucc : samplePointer u + u.lay.bps.toNat = 44 + (u.k.toNat + 1) * u.lay.bps.toNat := by
    rw [samplePointer, Nat.add_mul, Nat.one_mul, Nat.add_assoc]
  rw [hsucc]
  unfold advanceSample
  split_ifs with hmore
  · simp [bytesWritten, samplePointer, k_succ_toNat hmore]
  · simp [bytesWritten, samplePointer, k_succ_toNat hmore]
  · simp only [bytesWritten, State.toPhase_phase, State.toPhase_lay, hflen, show sampleCount u = u.k.toNat + 1 by omega]

/-- To the next channel of the frame. -/
theorem Counting.nextChannel (h : Counting u) (hmore : u.k.toNat + 1 < sampleCount u)
    (hc : u.c.toNat + 1 < u.nch.toNat) : Counting (u.toPayload (u.k + 1#48) u.f (u.c + 1#16)) := by
  have hk := k_succ_toNat hmore
  have hc' : (u.c + 1#16).toNat = u.c.toNat + 1 := toNat_succ_of_lt hc u.nch.isLt.le
  refine ⟨?_, ?_, ?_⟩ <;>
    simp only [State.toPayload_k, State.toPayload_f, State.toPayload_c, State.toPayload_nch, hk, hc']
  · exact hmore
  · rw [h.split, Nat.add_assoc]
  · exact hc

/-- To the first channel of the next frame. -/
theorem Counting.nextFrame (h : Counting u) (hmore : u.k.toNat + 1 < sampleCount u)
    (hc : ¬u.c.toNat + 1 < u.nch.toNat) : Counting (u.toPayload (u.k + 1#48) (u.f + 1#32) 0#16) := by
  have hk := k_succ_toNat hmore
  have hf' : (u.f + 1#32).toNat = u.f.toNat + 1 :=
    toNat_succ_of_lt (Nat.succ_lt_succ h.frame_lt) u.nfr.isLt
  have hlast : u.c.toNat + 1 = u.nch.toNat := by have := h.channel; omega
  refine ⟨?_, ?_, ?_⟩ <;>
    simp only [State.toPayload_k, State.toPayload_f, State.toPayload_c, State.toPayload_nch, hk, hf']
  · exact hmore
  · rw [h.split, Nat.add_assoc, hlast, Nat.add_mul, Nat.one_mul]
    rfl
  · exact Nat.zero_lt_of_lt h.channel

theorem phaseInv_advanceSample (h : Counting u) (hlive : Live (advanceSample u)) : PhaseInv (advanceSample u) := by
  unfold advanceSample at hlive ⊢
  split_ifs at hlive ⊢ with hmore hc
  · exact ⟨h.nextChannel hmore hc, hlive⟩
  · exact ⟨h.nextFrame hmore hc, hlive⟩
  · exact hlive

theorem sampleStep_phaseInv {v : Variant} {w : Word} {m : Memory} (hc : Counting u) (h : Live u)
    (hp : u.phase = .payload) (hv : u.lay.wsel = v.wsel) (hm : u.out = some m) :
    PhaseInv (advanceSample (u.withBytes m (samplePointer u) (sampleBytes v w))) := by
  have hwp := bytesWritten_of_payload hp
  rw [← hwp]
  refine phaseInv_advanceSample ⟨hc.count, hc.split, hc.channel⟩
    (h.write hm (advanceSample_onlySeqChanged _) ?_ fun i _ h44 => ?_)
  · rw [bytesWritten_advanceSample (u := u.withBytes m _ _) hc.count h.flen_eq, sampleBytes_length, hwp, ← h.bps_eq hv]
    rfl
  · rw [hwp, samplePointer] at h44
    omega

/-! Every transition. -/

/-- CHECK leaves a live encode that has written nothing (R122). -/
theorem checked_phaseInv {v : Variant} (hv : variantOf u.fmt = some v)
    (hcap : fitsCap u.outCap (Layout.of v u.nch u.nfr u.srate).flen.toNat = true) :
    PhaseInv (((u.setLay (Layout.of v u.nch u.nfr u.srate)).setOut (some [])).toHeader 0#4) :=
  ⟨Nat.zero_le 12, ⟨v, hv, rfl⟩, hcap, ⟨[], rfl, List.Pairwise.nil, by simp [bytesWritten, headerOffset]⟩,
    fun _ ha _ => absurd ha (Nat.not_lt_zero _)⟩

/-- A transition keeps the invariant. -/
theorem Transition.inv {t : State} (ht : Transition u t) (h : Inv u) : Inv t := by
  cases ht with
  | hostSide d y hd => exact h.setHostSide u.agenda (hd h.src) y
  | operand fmt nch nfr srate hp =>
    exact ⟨h.src, phaseInv_of_atRest ((h.atRest (.inl hp)).setOperands fmt nch nfr srate) (.inl hp)⟩
  | start hp => exact ⟨h.src, (h.atRest (.inl hp)).toPhase .check⟩
  | ack hp => exact ⟨h.src, rfl, rfl, rfl, rfl, rfl, rfl⟩
  | unsupported hp hv => exact ⟨h.src, (h.atRest (.inr (.inl hp))).toPhase .error⟩
  | check v hp hv hcap => exact ⟨h.src, checked_phaseInv hv hcap⟩
  | header m hp hh hm hfit =>
    refine ⟨?_, headerStep_phaseInv (h.header hp).2 hp hh hm⟩
    rw [(afterRow_onlySeqChanged _ _).src_eq]
    exact h.src
  | sample v w m hp hv hw hm hfit =>
    obtain ⟨hcount, hlive⟩ := h.payload hp
    refine ⟨?_, sampleStep_phaseInv hcount hlive hp hv hm⟩
    rw [(advanceSample_onlySeqChanged _).src_eq]
    exact h.src

/-- The reset event meets the invariant whatever the phase was (70_reset_and_hazards.md R230). -/
theorem Inv.resetBlock (h : Inv u) : Inv (resetBlock u) := ⟨h.src, rfl, rfl, rfl, rfl, rfl, rfl⟩

end Invariant

/-- Settles O42: a step is reset or a transition, and each of them keeps the invariant. -/
theorem everyStepKeepsTheInvariant : Obligations.EveryStepKeepsTheInvariant := by
  intro s t hinv hstep
  rcases step_next_cases hstep with ⟨-, rfl⟩ | ht
  · exact hinv.taken.resetBlock
  · exact ht.inv hinv.taken

end Sys2Proof.Machine

/-! The sequencer's transitions, what an encode locks, and what its steps do not read. -/

namespace Sys2Proof.Machine

section EncodeSteps

variable {s u t : State}

/-! The operands and the latched values (10_state.md R25, R33). -/

theorem Transition.operands_eq (ht : Transition u t) (hp : u.phase ≠ .idle) :
    t.fmt = u.fmt ∧ t.nch = u.nch ∧ t.nfr = u.nfr ∧ t.srate = u.srate := by
  cases ht with
  | operand fmt nch nfr srate hidle => exact absurd hidle hp
  | header m => exact (afterRow_onlySeqChanged u.hp.toNat _).operands_eq
  | sample v w m => exact (advanceSample_onlySeqChanged _).operands_eq
  | hostSide | start | ack | unsupported | check => exact ⟨rfl, rfl, rfl, rfl⟩

theorem Transition.lay_eq (ht : Transition u t) (hp : u.phase = .header ∨ u.phase = .payload) : t.lay = u.lay := by
  cases ht with
  | ack hdone => rcases hp with hp | hp <;> simp [hp] at hdone
  | check v hcheck => rcases hp with hp | hp <;> simp [hp] at hcheck
  | header m => exact (afterRow_onlySeqChanged u.hp.toNat _).lay_eq
  | sample v w m => exact (advanceSample_onlySeqChanged _).lay_eq
  | hostSide | operand | start | unsupported => rfl

/-! Where SEQ goes after a header step and after a sample step (10_state.md R30). -/

theorem afterRow_seq {h : Nat} (hh : h ≤ 12) :
    (h < 12 ∧ (afterRow h u).phase = .header ∧ (afterRow h u).hp.toNat = h + 1) ∨
    (h = 12 ∧ 0 < sampleCount u ∧ (afterRow h u).phase = .payload ∧ (afterRow h u).k = 0#48) ∨
    (h = 12 ∧ sampleCount u = 0 ∧ (afterRow h u).phase = .done) := by
  unfold afterRow afterHeader
  split_ifs with hlt hN
  · exact .inl ⟨hlt, rfl, Nat.mod_eq_of_lt (by omega)⟩
  · exact .inr (.inl ⟨by omega, hN, rfl, rfl⟩)
  · exact .inr (.inr ⟨by omega, Nat.eq_zero_of_not_pos hN, rfl⟩)

theorem advanceSample_seq (hk : u.k.toNat < sampleCount u) :
    (u.k.toNat + 1 < sampleCount u ∧ (advanceSample u).phase = .payload ∧
      (advanceSample u).k.toNat = u.k.toNat + 1) ∨
    (u.k.toNat + 1 = sampleCount u ∧ (advanceSample u).phase = .done) := by
  unfold advanceSample
  split_ifs with hmore
  · exact .inl ⟨hmore, rfl, k_succ_toNat hmore⟩
  · exact .inl ⟨hmore, rfl, k_succ_toNat hmore⟩
  · exact .inr ⟨by omega, rfl⟩

/-! FMT in HEADER and PAYLOAD (R34). -/

/-- The outcome with another value in FMT. -/
def withFmt (x : BitVec 32) : Outcome → Outcome
  | .next t => .next (t.setFmt x)
  | .fault r => .fault r
  | .refused r => .refused r

variable (x : BitVec 32)

theorem storeBytes_setFmt {a : Nat} {bs : List Byte} {after : State → State}
    (hafter : ∀ u : State, after (u.setFmt x) = (after u).setFmt x) :
    storeBytes (u.setFmt x) a bs after = withFmt x (storeBytes u a bs after) := by
  cases hm : u.out with
  | none => simp only [storeBytes, State.setFmt_out, hm, withFmt]
  | some m =>
    by_cases hfit : a + bs.length ≤ u.lay.flen.toNat
    · rw [storeBytes_of_fits hm hfit, storeBytes_of_fits (s := u.setFmt x) hm hfit]
      exact congrArg Host.Outcome.next (hafter (u.setOut _))
    · simp [storeBytes, hm, hfit, withFmt]

theorem afterHeader_setFmt : afterHeader (u.setFmt x) = (afterHeader u).setFmt x := by
  unfold afterHeader
  rw [apply_ite (State.setFmt · x)]
  rfl

theorem afterRow_setFmt (h : Nat) : afterRow h (u.setFmt x) = (afterRow h u).setFmt x := by
  unfold afterRow
  split_ifs
  · rfl
  · exact afterHeader_setFmt x

theorem advanceSample_setFmt : advanceSample (u.setFmt x) = (advanceSample u).setFmt x := by
  unfold advanceSample
  simp only [apply_ite (State.setFmt · x)]
  rfl

theorem sampleStep_setFmt {writer : Word → List Byte} :
    sampleStep (u.setFmt x) writer = withFmt x (sampleStep u writer) := by
  have hread : srcRead (u.setFmt x) (u.setFmt x).c (u.setFmt x).f = srcRead u u.c u.f := rfl
  unfold sampleStep
  rw [hread]
  cases srcRead u u.c u.f with
  | none => rfl
  | some w => exact storeBytes_setFmt x fun u => advanceSample_setFmt x

theorem step_enc_setFmt (he : EncTurn s) (hp : s.phase = .header ∨ s.phase = .payload) :
    step (s.setFmt x) = withFmt x (step s) := by
  rcases hp with hp | hp
  · rcases Nat.lt_or_ge 12 s.hp.toNat with hh | hh
    · rw [step_enc_header_reserved he hp hh, step_enc_header_reserved (s := s.setFmt x) he hp hh]
      rfl
    · rw [step_enc_header he hp hh, step_enc_header (s := s.setFmt x) he hp hh]
      exact storeBytes_setFmt (u := taken s) x fun u => afterRow_setFmt x _
  · obtain ⟨v, hv⟩ := exists_wsel_eq s.lay.wsel
    rw [step_enc_payload he hp hv, step_enc_payload (s := s.setFmt x) he hp hv]
    exact sampleStep_setFmt (u := taken s) x

end EncodeSteps

/-- Settles O38: header and sample steps commute with a change of FMT, whatever their outcome. -/
theorem headerAndSampleStepsIgnoreFmt : Obligations.HeaderAndSampleStepsIgnoreFmt := by
  intro s x he hp
  have hstep : step { s with fmt := x } = withFmt x (step s) := step_enc_setFmt x he hp
  rw [hstep]
  cases step s <;> rfl

/-- Settles O39: K < N and FLEN = 44 + N × BPS leave room for sample K, and BPS is 2 or 4, which divides 44. -/
theorem samplePointerStaysInside : Obligations.SamplePointerStaysInside := by
  intro s hinv hp
  obtain ⟨hcount, hlive⟩ := hinv.payload hp
  obtain ⟨v, -, hbps, hflen⟩ := hlive.exists_variant
  refine ⟨?_, ?_, by rw [samplePointer, hcount.split], hcount.frame_lt⟩
  · calc samplePointer s + s.lay.bps.toNat = 44 + (s.k.toNat + 1) * v.bytes := by
          rw [samplePointer, hbps, Nat.add_mul, Nat.one_mul, Nat.add_assoc]
      _ ≤ 44 + sampleCount s * v.bytes := Nat.add_le_add_left (Nat.mul_le_mul_right _ hcount.count) 44
      _ = s.lay.flen.toNat := hflen.symm
  · rw [samplePointer, hbps, Nat.add_mul_mod_self_right]
    rcases v.bytes_cases with hv | hv <;> rw [hv]

/-- Settles O44: the transitions one by one; the invariant gives K < N in PAYLOAD. -/
theorem sequencerHasNoOtherTransition : Obligations.SequencerHasNoOtherTransition := by
  intro s t hinv hr hstep
  cases transition_of_step hr hstep with
  | hostSide | operand => exact .inl ⟨rfl, rfl, rfl, rfl, rfl⟩
  | start hp => exact .inr (.inl ⟨hp, rfl⟩)
  | ack hp =>
    have hp : s.phase = .done ∨ s.phase = .error := hp
    rcases hp with hp | hp <;> simp [hp]
  | unsupported hp => exact .inr (.inr (.inr (.inl ⟨hp, rfl⟩)))
  | check v hp => exact .inr (.inr (.inl ⟨hp, rfl, rfl⟩))
  | header m hp hh =>
    rcases afterRow_seq (u := (taken s).withBytes m (headerOffset s.hp.toNat) (rowBytes s s.hp.toNat)) hh with
      ⟨hlt, hphase, hnext⟩ | ⟨hlast, hN, hphase, hk⟩ | ⟨hlast, hN, hphase⟩
    · exact .inr (.inr (.inr (.inr (.inl ⟨hp, hlt, hphase, hnext⟩))))
    · exact .inr (.inr (.inr (.inr (.inr (.inl ⟨hp, BitVec.eq_of_toNat_eq hlast, hN, hphase, hk⟩)))))
    · exact .inr (.inr (.inr (.inr (.inr (.inr (.inl ⟨hp, BitVec.eq_of_toNat_eq hlast, hN, hphase⟩))))))
  | sample v w m hp =>
    rcases advanceSample_seq (u := (taken s).withBytes m (samplePointer s) (sampleBytes v w))
      (hinv.payload hp).1.count with ⟨hmore, hphase, hnext⟩ | ⟨hlast, hphase⟩
    · exact .inr (.inr (.inr (.inr (.inr (.inr (.inr (.inl ⟨hp, hmore, hphase, hnext⟩)))))))
    · exact .inr (.inr (.inr (.inr (.inr (.inr (.inr (.inr (.inl ⟨hp, hlast, hphase⟩))))))))

/-- Settles O45: every transition outside IDLE keeps the operands, and in HEADER and PAYLOAD the layout. -/
theorem encodeOperandsAreLocked : Obligations.EncodeOperandsAreLocked := by
  intro s t hr hstep
  have ht := transition_of_step hr hstep
  exact ⟨ht.operands_eq, ht.lay_eq⟩

end Sys2Proof.Machine

/-! The register block as HOST sees it (10_state.md R25 to R29), and the state after reset (R45). -/

namespace Sys2Proof.Machine

section RegisterBlock

variable {s : State}

theorem startCommand_of_ne_idle (h : s.phase ≠ .idle) : startCommand s = s := by
  unfold startCommand
  split
  · exact absurd ‹_› h
  all_goals rfl

theorem startCommand_of_idle (h : s.phase = .idle) : startCommand s = s.toPhase .check := by
  simp only [startCommand, h]

/-- Outside IDLE a write of an operand register is ignored. -/
theorem step_regWrite_of_ne_idle {offset size : Nat} {v : Word} {r : Reg}
    (h : HostTurn s (.regWrite offset size v)) (hr : regAt offset size = some r) (hc : r ≠ .ctrl)
    (hp : s.phase ≠ .idle) : step s = .next (taken s) := by
  rw [step_regWrite h hr hc, regStore_of_ne_idle (s := taken s) hp]

/-- In IDLE it is stored. -/
theorem step_regWrite_of_idle {offset size : Nat} {v : Word} {r : Reg}
    (h : HostTurn s (.regWrite offset size v)) (hr : regAt offset size = some r) (hc : r ≠ .ctrl)
    (hp : s.phase = .idle) : step s = .next (storeOperand (taken s) v r) := by
  rw [step_regWrite h hr hc, regStore_of_idle (s := taken s) hp]

theorem regValue_flenLo_toNat : (regValue s .flenLo).toNat = s.lay.flen.toNat % 2 ^ 32 := by
  simp [regValue]

theorem regValue_flenHi_toNat : (regValue s .flenHi).toNat = s.lay.flen.toNat / 2 ^ 32 := by
  have := s.lay.flen.isLt
  simp only [regValue, BitVec.toNat_setWidth, BitVec.extractLsb'_toNat, Nat.shiftRight_eq_div_pow]
  omega

/-- The accesses of the map, and no others, name a register (R26). -/
theorem exists_regAt_iff {offset size : Nat} :
    (∃ r, regAt offset size = some r) ↔ size = 4 ∧ offset % 4 = 0 ∧ offset ≤ 0x1C := by
  rw [← Option.isSome_iff_exists, regAt_isSome_iff]
  simp [regAccessWf, and_assoc]

theorem regAt_eq_none {offset size : Nat} (h : ¬(size = 4 ∧ offset % 4 = 0 ∧ offset ≤ 0x1C)) :
    regAt offset size = none := by
  rw [← exists_regAt_iff, ← Option.isSome_iff_exists] at h
  simpa using h

end RegisterBlock

/-- Settles O5: bits 1:0 of the word are its value mod 4, on which CTRL's effect turns. -/
theorem ctrlWriteGivesCommands : Obligations.CtrlWriteGivesCommands := by
  intro s w
  refine ⟨fun h h₀ h₁ => ⟨fun hp => ?_, fun hp => ?_⟩, fun h h₀ h₁ => ?_, fun h heq => ?_, fun h => step_regRead h rfl⟩
  · rw [step_ctrlWrite h rfl, ctrlEffect, toNat_mod_four, h₀, h₁]
    exact congrArg _ (startCommand_of_idle (s := taken s) hp)
  · rw [step_ctrlWrite h rfl, ctrlEffect, toNat_mod_four, h₀, h₁]
    exact congrArg _ (startCommand_of_ne_idle (s := taken s) hp)
  · rw [step_ctrlWrite h rfl, ctrlEffect, toNat_mod_four, h₀, h₁]
    rfl
  · rw [step_ctrlWrite h rfl, ctrlEffect, toNat_mod_four, heq]
    cases w.getLsbD 1 <;> rfl

/-- Settles O6: the read answers `statusWord`, which the six phases evaluate. -/
theorem statusShowsPhase : Obligations.StatusShowsPhase := by
  refine ⟨fun s h => ?_, fun p => ?_, rfl⟩
  · rw [step_regRead h rfl]
    refine congrArg (fun w => Host.Outcome.next ((taken s).setReply (some (.word w)))) (?_ : statusWord s.phase = _)
    cases s.phase <;> rfl
  · cases p <;> decide

/-- Settles O7: in IDLE the four operand writes, elsewhere one ignored write, and the four reads. -/
theorem operandRegistersLockOutsideIdle : Obligations.OperandRegistersLockOutsideIdle := by
  intro s v
  refine ⟨fun hp => ⟨fun h => ?_, fun h => ?_, fun h => ?_, fun h => ?_⟩, fun hp offset hoff h => ?_,
    fun h => ?_, fun h => ?_, fun h => ?_, fun h => ?_⟩
  · exact step_regWrite_of_idle h rfl nofun hp
  · rw [BitVec.ofNat_toNat, BitVec.setWidth_eq_extractLsb' (by decide)]
    exact step_regWrite_of_idle h rfl nofun hp
  · exact step_regWrite_of_idle h rfl nofun hp
  · exact step_regWrite_of_idle h rfl nofun hp
  · rcases hoff with rfl | rfl | rfl | rfl <;> exact step_regWrite_of_ne_idle h rfl nofun hp
  · exact step_regRead h rfl
  · rw [BitVec.ofNat_toNat]
    exact step_regRead h rfl
  · exact step_regRead h rfl
  · exact step_regRead h rfl

/-- Settles O8: outside IDLE every write is ignored, and in IDLE these three store no operand. -/
theorem readOnlyRegistersIgnoreWrites : Obligations.ReadOnlyRegistersIgnoreWrites := by
  intro s v offset hoff h
  by_cases hp : s.phase = .idle
  · rcases hoff with rfl | rfl | rfl <;> exact step_regWrite_of_idle h rfl nofun hp
  · rcases hoff with rfl | rfl | rfl <;> exact step_regWrite_of_ne_idle h rfl nofun hp

/-- Settles O9: the two halves of FLEN; reset, ACK and the invariant in ERROR leave the zero layout. -/
theorem fileLengthRegistersShowFlen : Obligations.FileLengthRegistersShowFlen := by
  refine ⟨fun s h => ⟨_, step_regRead h rfl, regValue_flenLo_toNat⟩,
    fun s h => ⟨_, step_regRead h rfl, regValue_flenHi_toNat⟩, rfl, fun s t hp hack => ?_, fun s hinv hp => ?_⟩
  · obtain rfl : acknowledge s = t := by simpa [exec, execAck] using hack
    rcases hp with hp | hp <;> simp only [acknowledge, hp] <;> rfl
  · rw [(hinv.atRest (.inr (.inr hp))).lay]
    rfl

/-- Settles O10: an access outside the map names no register; one inside names a register, and both a read
and a write of a register answer a next state. -/
theorem registerAccessIsAlignedWord : Obligations.RegisterAccessIsAlignedWord := by
  intro s offset size v
  refine ⟨fun hbad => ⟨fun h => step_regWrite_refused h (regAt_eq_none hbad),
    fun h => step_regRead_refused h (regAt_eq_none hbad)⟩, fun hgood => ?_⟩
  obtain ⟨r, hr⟩ := exists_regAt_iff.2 hgood
  refine ⟨fun h => ?_, fun h => ⟨_, step_regRead h hr⟩⟩
  by_cases hc : r = .ctrl
  · exact ⟨_, step_ctrlWrite h (hc ▸ hr)⟩
  · exact ⟨_, step_regWrite h hr hc⟩

/-- Settles O15: the reset values are those of R45, and with START on the agenda the two steps evaluate. -/
theorem resetStateIsIdleAndEmpty : Obligations.ResetStateIsIdleAndEmpty :=
  ⟨rfl, rfl, rfl, rfl, rfl, rfl, rfl, rfl, rfl, rfl, rfl, rfl, rfl, rfl, rfl, rfl, rfl, rfl, rfl, rfl, rfl, rfl⟩

/-- Settles O41: after reset there is no sample data and no encode. -/
theorem invariantHoldsAtReset : Obligations.InvariantHoldsAtReset :=
  ⟨reset_memory.2, rfl, rfl, rfl, rfl, rfl, rfl⟩

end Sys2Proof.Machine

/-! OUT and SRC as HOST sees them (20_memory.md R62 to R72): what a step does to OUT, HOST's reads of it, and
HOST's changes of its sample data. -/

namespace Sys2Proof.Machine

section OutBuffer

variable {s t u : State}

theorem Inv.live (h : Inv s) (hp : s.phase = .header ∨ s.phase = .payload ∨ s.phase = .done) : Live s := by
  rcases hp with hp | hp | hp
  · exact (h.header hp).2
  · exact (h.payload hp).2
  · simpa only [PhaseInv, hp] using h.phase

/-- The bytes written are those below the write pointer, and no others (20_memory.md R67). -/
theorem Live.outByte_isSome_iff (h : Live s) (a : Nat) : (outByte s a).isSome ↔ a < bytesWritten s := by
  obtain ⟨m, hm, -, hwritten⟩ := h.buffer
  simpa only [outByte, hm, Option.bind_some] using hwritten a

theorem bytesWritten_of_done (hp : s.phase = .done) : bytesWritten s = s.lay.flen.toNat := by
  simp only [bytesWritten, hp]

theorem OnlySeqChanged.out_eq (h : OnlySeqChanged s t) : t.out = s.out := by
  obtain ⟨p, hp, k, f, c, rfl⟩ := h
  rfl

/-- What a transition does to OUT: nothing, ACK's release, CHECK's allocation, or a write at the write
pointer by a header or sample step (R41, R68). -/
theorem Transition.out_cases (ht : Transition u t) :
    t.out = u.out ∨ ((u.phase = .done ∨ u.phase = .error) ∧ t.out = none ∧ t.phase = .idle) ∨
      (u.phase = .check ∧ t.out = some []) ∨
      ((u.phase = .header ∨ u.phase = .payload) ∧
        ∃ m bs, u.out = some m ∧ t.out = some (Memory.writeBytes m (bytesWritten u) bs)) := by
  cases ht with
  | hostSide | operand | start | unsupported => exact .inl rfl
  | ack hp => exact .inr (.inl ⟨hp, rfl, rfl⟩)
  | check v hp => exact .inr (.inr (.inl ⟨hp, rfl⟩))
  | header m hp hh hm =>
    refine .inr (.inr (.inr ⟨.inl hp, m, rowBytes u u.hp.toNat, hm, ?_⟩))
    rw [(afterRow_onlySeqChanged _ _).out_eq, bytesWritten_of_header hp]
    rfl
  | sample v w m hp hv hw hm =>
    refine .inr (.inr (.inr ⟨.inr hp, m, sampleBytes v w, hm, ?_⟩))
    rw [(advanceSample_onlySeqChanged _).out_eq, bytesWritten_of_payload hp]
    rfl

/-- A write at the write pointer meets no byte already written (R67). -/
theorem Live.outByte_write {m : Memory} {bs : List Byte} {a : Nat} {b : Byte} (h : Live u) (hm : u.out = some m)
    (ht : t.out = some (Memory.writeBytes m (bytesWritten u) bs)) (hb : outByte u a = some b) :
    outByte t a = some b := by
  have hlt : a < bytesWritten u := (h.outByte_isSome_iff a).1 (by simp [hb])
  rw [← hb, outByte, outByte, ht, hm, Option.bind_some, Option.bind_some, Memory.get?_writeBytes_outside (.inl hlt)]

/-- A transition keeps every written byte, or releases OUT. -/
theorem Transition.outByte_eq (ht : Transition u t) (hinv : Inv u) {a : Nat} {b : Byte} (hb : outByte u a = some b) :
    outByte t a = some b ∨ t.out = none := by
  rcases ht.out_cases with hout | ⟨-, hnone, -⟩ | ⟨hcheck, -⟩ | ⟨hp, m, bs, hm, hout⟩
  · exact .inl (by rw [outByte, hout]; exact hb)
  · exact .inr hnone
  · have habsent : u.out = none := (hinv.atRest (.inr (.inl hcheck))).out
    simp [outByte, habsent] at hb
  · have hlive : Live u := hinv.live (hp.elim .inl fun h => .inr (.inl h))
    exact .inl (hlive.outByte_write hm hout hb)

/-- In DONE OUT stays as it is until ACK releases it (R68). -/
theorem Transition.out_of_done (ht : Transition u t) (hp : u.phase = .done) :
    t.out = u.out ∨ t.out = none ∧ t.phase = .idle := by
  rcases ht.out_cases with hout | ⟨-, hreleased⟩ | ⟨hcheck, -⟩ | ⟨hbusy, -⟩
  · exact .inl hout
  · exact .inr hreleased
  · simp [hp] at hcheck
  · simp [hp] at hbusy

/-! HOST's reads of OUT (R72). -/

theorem step_outRead {addr n : Nat} (h : HostTurn s (.outRead addr n)) : step s = readOut (taken s) addr n :=
  step_of_fetch_act (fetch_of_hostTurn h)

theorem readOut_of_ne_done {addr n : Nat} (hp : s.phase ≠ .done) : readOut s addr n = .refused .outNotReadable := by
  unfold readOut
  split
  · exact absurd ‹_› hp
  all_goals rfl

theorem readOut_beyond {addr n : Nat} (hp : s.phase = .done) (hfit : s.lay.flen.toNat < addr + n) :
    readOut s addr n = .refused .outReadBeyond := by
  simp only [readOut, hp, if_neg (Nat.not_le_of_lt hfit)]

theorem readOut_of_readBytes {addr n : Nat} {m : Memory} {bs : List Byte} (hp : s.phase = .done)
    (hfit : addr + n ≤ s.lay.flen.toNat) (hm : s.out = some m) (hbs : Memory.readBytes m addr n = some bs) :
    readOut s addr n = .next (s.setReply (some (.bytes bs))) := by
  simp only [readOut, hp, if_pos hfit, hm, Option.bind_some, hbs]

/-- Bytes that have all been written can be read, each as it was written. -/
theorem Memory.exists_readBytes {m : Memory} {a n : Nat} (h : ∀ i, i < n → (Cells.get? m (a + i)).isSome) :
    ∃ bs, Memory.readBytes m a n = some bs ∧ bs.length = n ∧ ∀ i, i < n → bs[i]? = Cells.get? m (a + i) := by
  exact ⟨List.ofFn fun i : Fin n => (Cells.get? m (a + i)).get (h i i.isLt),
    Memory.readBytes_eq_some List.length_ofFn fun i hi => by simp [hi], List.length_ofFn, fun i hi => by simp [hi]⟩

/-! HOST's changes of SRC (R62). -/

/-- HOST's change of its sample data goes through in every phase (40_commands.md R127, log 11). -/
theorem step_sample {c : BitVec 16} {i : BitVec 32} {w : Option Word} (h : HostTurn s (.sample c i w)) :
    step s = .next ((taken s).setSrc (srcChange s.src c i w)) :=
  step_of_fetch_act (fetch_of_hostTurn h)

end OutBuffer

/-- Settles O11: `readOut` by phase and bound; in DONE every byte below FLEN is written. -/
theorem outIsReadableOnlyInDone : Obligations.OutIsReadableOnlyInDone := by
  intro s addr n h
  rw [step_outRead h]
  refine ⟨fun hp => readOut_of_ne_done hp, fun hp hfit => readOut_beyond hp hfit, fun hinv hp hfit => ?_⟩
  have hlive : Live s := hinv.live (.inr (.inr hp))
  have hwritten : ∀ i, i < n → (outByte s (addr + i)).isSome := fun i hi => by
    rw [hlive.outByte_isSome_iff, bytesWritten_of_done hp]
    omega
  obtain ⟨m, hm, -⟩ := hlive.buffer
  have hbyte : ∀ a, outByte s a = Cells.get? m a := fun a => by rw [outByte, hm, Option.bind_some]
  obtain ⟨bs, hread, hlen, hget⟩ := Memory.exists_readBytes fun i hi => hbyte (addr + i) ▸ hwritten i hi
  exact ⟨bs, readOut_of_readBytes (s := taken s) hp hfit hm hread, hlen,
    fun i hi => ⟨hwritten i hi, (hget i hi).trans (hbyte _).symm⟩⟩

/-- Settles O12: the bytes read are the bytes written, whose value is v mod 2^(8n) (R64, R70). -/
theorem memReadAfterMemWrite : Obligations.MemReadAfterMemWrite := by
  intro m addr n v hwf
  have hread := memRead_writeBytes m addr (leBytes n v)
  rw [leBytes_length, leValue_leBytes] at hread
  exact ⟨hread, fun a ha => Memory.get?_writeBytes_outside (by rwa [leBytes_length]),
    Memory.wf_writeBytes hwf addr _⟩

/-- Settles O46: reset leaves no OUT, and every transition writes past the bytes already written. -/
theorem writtenBytesNeverChange : Obligations.WrittenBytesNeverChange := by
  intro s t hinv hstep
  rcases step_next_cases hstep with ⟨-, rfl⟩ | ht
  · exact ⟨fun a b _ => .inr rfl, fun _ => .inr ⟨rfl, rfl⟩⟩
  · exact ⟨fun a b hb => ht.outByte_eq hinv.taken hb, ht.out_of_done⟩

/-- Settles O13: the step changes the one location of SRC, and different locations have different keys. -/
theorem sampleChangeIsLocal : Obligations.SampleChangeIsLocal := by
  intro s c i w h
  refine ⟨_, step_sample h, rfl, ?_, fun c' i' hne => ?_⟩
  · exact (srcRead_setSrc_change (taken s) c c i i w).trans (if_pos ⟨rfl, rfl⟩)
  · exact (srcRead_setSrc_change (taken s) c c' i i' w).trans (if_neg fun ⟨hc, hi⟩ => hne.elim (· hc) (· hi))

end Sys2Proof.Machine

/-! The decoder (30_encoding.md R90 to R93, R100 to R102): a format reads the low bits of a word, as many as
its mask holds, and an operation's word is the value of those bits. -/

namespace Sys2Proof

section Decoder

variable {f : Format} {w w' : Word} {i : Instr}

/-- How many bits of a word a format reads (R91 to R93). -/
def Format.width : Format → Nat
  | .cmd => 32
  | .ctrl => 2
  | .hstep => 4
  | .wsel => 1

theorem Format.mask_toNat (f : Format) : f.mask.toNat = 2 ^ f.width - 1 := by cases f <;> rfl

theorem and_mask_toNat (f : Format) (w : Word) : (w &&& f.mask).toNat = w.toNat % 2 ^ f.width := by
  rw [BitVec.toNat_and, f.mask_toNat, Nat.and_two_pow_sub_one_eq_mod]

/-- The decoder reads no bit outside the format's mask. -/
theorem decode_congr (h : w.toNat % 2 ^ f.width = w'.toNat % 2 ^ f.width) : decode f w = decode f w' := by
  cases f with
  | cmd =>
    have h : w.toNat % 2 ^ 32 = w'.toNat % 2 ^ 32 := h
    rw [Nat.mod_eq_of_lt w.isLt, Nat.mod_eq_of_lt w'.isLt] at h
    rw [BitVec.eq_of_toNat_eq h]
  | ctrl =>
    have h : w.toNat % 4 = w'.toNat % 4 := h
    simp only [decode, decodeCtrl, h]
  | hstep =>
    have h : w.toNat % 16 = w'.toNat % 16 := h
    simp only [decode, decodeHstep, h]
  | wsel =>
    have h : w.toNat % 2 = w'.toNat % 2 := h
    simp only [decode, decodeWsel, h]

theorem decode_and_mask (f : Format) (w : Word) : decode f (w &&& f.mask) = decode f w :=
  decode_congr (by rw [and_mask_toNat, Nat.mod_mod])

/-- Every operation is read back from its own word. -/
theorem decode_encode (i : Instr) : decode i.format (encode i) = .ok i := by cases i <;> rfl

/-- What a format reads is one of its own operations, and the bits read are that operation's word. -/
theorem encode_toNat_of_decode (h : decode f w = .ok i) :
    i.format = f ∧ (encode i).toNat = w.toNat % 2 ^ f.width := by
  cases f with
  | cmd =>
    simp only [decode, decodeCmd] at h
    split_ifs at h with h₁ h₃ <;> cases h
    · subst h₁; exact ⟨rfl, rfl⟩
    · subst h₃; exact ⟨rfl, rfl⟩
  | ctrl =>
    simp only [decode, decodeCtrl] at h
    split at h <;> cases h
    exact ⟨rfl, Eq.symm ‹_›⟩
  | hstep =>
    simp only [decode, decodeHstep] at h
    split at h <;> cases h
    all_goals exact ⟨rfl, Eq.symm ‹_›⟩
  | wsel =>
    simp only [decode, decodeWsel] at h
    rcases Nat.mod_two_eq_zero_or_one w.toNat with hw | hw <;> rw [hw] at h <;> cases h <;> exact ⟨rfl, hw.symm⟩

end Decoder

end Sys2Proof

namespace Sys2Proof.Machine

/-- An aligned word write of CTRL is an operation word (10_state.md R27, 30_encoding.md R92). -/
theorem fetch_ctrlWrite {s : State} {w : Word} (h : HostTurn s (.regWrite 0x00 4 w)) : fetch s = .op .ctrl w :=
  fetch_of_hostTurn h

/-- Settles O2: the decoder sees the masked word only, where it inverts `encode`; and what it reads has the
masked bits for its word. -/
theorem decodeAgreesWithMatchAndMask : Obligations.DecodeAgreesWithMatchAndMask := by
  intro f w i
  constructor
  · intro h
    obtain ⟨hformat, hword⟩ := encode_toNat_of_decode h
    exact ⟨hformat, BitVec.eq_of_toNat_eq ((and_mask_toNat f w).trans hword.symm)⟩
  · rintro ⟨rfl, hword⟩
    calc decode i.format w = decode i.format (w &&& i.format.mask) := (decode_and_mask i.format w).symm
      _ = decode i.format (encode i) := by rw [hword]
      _ = .ok i := decode_encode i

/-- Settles O1: the decoder evaluates on each word. -/
theorem specWordsDecode : Obligations.SpecWordsDecode :=
  ⟨rfl, rfl, rfl, rfl, rfl, rfl, rfl, rfl, rfl, rfl, rfl, rfl, rfl, rfl⟩

/-- Settles O3: `decode_encode`; no operation has an operand, so well-formedness asks nothing (R99). -/
theorem encodedOperationDecodesBack : Obligations.EncodedOperationDecodesBack :=
  fun i _ => decode_encode i

/-- Settles O4: whose turn it is and SEQ give the word fetched, and a step runs what that word decodes to. -/
theorem stepRunsDecodedOperation : Obligations.StepRunsDecodedOperation := by
  intro s i
  refine ⟨fun he hp hd => ?_, fun he hp hd => ?_, fun he hp hd => ?_, fun w h hd => ?_, fun he hp => ?_⟩
  · exact step_of_decode_ok (fetch_enc_check he hp) hd
  · exact step_of_decode_ok (fetch_enc_header he hp) hd
  · exact step_of_decode_ok (fetch_enc_payload he hp) hd
  · exact step_of_decode_ok (fetch_ctrlWrite h) hd
  · exact step_enc_rest he hp

end Sys2Proof.Machine

/-! The file of an encode, piece by piece: the header image of the latched values, and behind it the samples
frame by frame, sample K at `44 + K × BPS` (41_header_marshaller.md R145, 43_payload_writers.md R193, R196). -/

namespace Sys2Proof.Machine

section FileImage

variable {s : State} {v : Variant}

/-- The latched values are the constants and exact products of R140 to R142. -/
theorem Layout.of_layoutIs (v : Variant) (nch : BitVec 16) (nfr srate : BitVec 32) :
    LayoutIs (Layout.of v nch nfr srate) v.wsel.toNat v.audioFormat v.bits v.bytes nch.toNat nfr.toNat srate.toNat := by
  have hframe : nch.toNat * v.bytes < 2 ^ 18 := by
    have := nch.isLt
    rcases v.bytes_cases with hv | hv <;> rw [hv] <;> omega
  have hsecond : srate.toNat * (nch.toNat * v.bytes) < 2 ^ 32 * 2 ^ 18 := Nat.mul_lt_mul'' srate.isLt hframe
  have hflen := Layout.of_flen_toNat v nch nfr srate
  have hfits := (Layout.of v nch nfr srate).flen.isLt
  refine ⟨rfl, ?_, ?_, Layout.of_bps_toNat v nch nfr srate, Nat.mod_eq_of_lt hframe, Nat.mod_eq_of_lt hsecond,
    Nat.mod_eq_of_lt (by omega), hflen⟩
  · cases v <;> rfl
  · cases v <;> rfl

/-- In blocks of one length, block q begins at q blocks from the start. -/
theorem getElem?_flatMap_range {α : Type} {g : Nat → List α} {b n q i : Nat} (hlen : ∀ j, (g j).length = b)
    (hq : q < n) (hi : i < b) : ((List.range n).flatMap g)[q * b + i]? = (g q)[i]? := by
  obtain ⟨d, rfl⟩ : ∃ d, n = q + (d + 1) := ⟨n - q - 1, by omega⟩
  have hbefore : ((List.range q).flatMap g).length = q * b := by simp [List.length_flatMap, hlen]
  rw [List.range_add, List.flatMap_append, List.getElem?_append_right (by omega), hbefore, Nat.add_sub_cancel_left,
    List.range_succ_eq_map, List.map_cons, List.flatMap_cons, Nat.add_zero, List.getElem?_append_left (by rwa [hlen])]

/-- The samples of the file, frame by frame (R120). -/
def payloadBytes (v : Variant) (nch nfr : Nat) (src : Nat → Nat → Word) : List Byte :=
  (List.range nfr).flatMap fun f => (List.range nch).flatMap fun c => sampleBytes v (src c f)

theorem payloadBytes_length (v : Variant) (nch nfr : Nat) (src : Nat → Nat → Word) :
    (payloadBytes v nch nfr src).length = nch * nfr * v.bytes := by
  simp [payloadBytes, List.length_flatMap, Nat.mul_comm nch nfr, Nat.mul_assoc]

/-- The sample of channel c and frame f is number `f × NCH + c` (10_state.md R31). -/
theorem payloadBytes_getElem? {nch nfr c f i : Nat} (src : Nat → Nat → Word) (hc : c < nch) (hf : f < nfr)
    (hi : i < v.bytes) :
    (payloadBytes v nch nfr src)[(f * nch + c) * v.bytes + i]? = (sampleBytes v (src c f))[i]? := by
  have hinside : c * v.bytes + i < nch * v.bytes :=
    calc c * v.bytes + i < (c + 1) * v.bytes := by rw [Nat.add_mul]; omega
      _ ≤ nch * v.bytes := Nat.mul_le_mul_right _ hc
  rw [Nat.add_mul, Nat.mul_assoc, Nat.add_assoc, payloadBytes,
    getElem?_flatMap_range (by simp [List.length_flatMap]) hf hinside, getElem?_flatMap_range (by simp) hc hi]

theorem encodeFile_of_variantOf {fmt : BitVec 32} (hv : variantOf fmt = some v) (nch nfr srate : Nat)
    (src : Nat → Nat → Word) :
    encodeFile fmt nch nfr srate src = some
      (header v.audioFormat v.bits nch srate (srate * (nch * v.bytes)) (nch * v.bytes) (nch * nfr * v.bytes)
        (44 + nch * nfr * v.bytes) ++ payloadBytes v nch nfr src) := by
  rw [encodeFile, hv]
  rfl

theorem header_length (afmt bits nch srate bpsec bpf dlen flen : Nat) :
    (header afmt bits nch srate bpsec bpf dlen flen).length = 44 := by
  simp [header]

theorem headerImage_length (s : State) : (headerImage s).length = 44 := header_length ..

/-- While an encode holds the block, its file is the header image and the samples (R120, R145). -/
theorem Live.fileImage_eq (h : Live s) (hv : s.lay.wsel = v.wsel) :
    fileImage s = headerImage s ++ payloadBytes v s.nch.toNat s.nfr.toNat (sampleOf s) := by
  obtain ⟨v', hfmt, hlay⟩ := h.layout
  obtain rfl : v = v' := Variant.wsel_injective (hv.symm.trans (by rw [hlay, Layout.of_wsel]))
  have hnum := Layout.of_layoutIs v s.nch s.nfr s.srate
  rw [fileImage, encodeFile_of_variantOf hfmt, headerImage, hlay, hnum.afmt, hnum.bits, hnum.bpsec, hnum.bpf, hnum.dlen,
    hnum.flen]
  rfl

theorem Live.fileImage_length (h : Live s) : (fileImage s).length = s.lay.flen.toNat := by
  obtain ⟨v, hv, -, hflen⟩ := h.exists_variant
  rw [h.fileImage_eq hv, List.length_append, headerImage_length, payloadBytes_length, hflen]
  rfl

theorem Live.fileImage_getElem?_header (h : Live s) {a : Nat} (ha : a < 44) :
    (fileImage s)[a]? = (headerImage s)[a]? := by
  obtain ⟨v, hv, -⟩ := h.exists_variant
  rw [h.fileImage_eq hv, List.getElem?_append_left (by rwa [headerImage_length])]

/-- The file has the sample that is next at the write pointer (R193, R196). -/
theorem Live.fileImage_getElem?_sample (h : Live s) (hc : Counting s) (hv : s.lay.wsel = v.wsel) {w : Word}
    (hw : srcRead s s.c s.f = some w) {i : Nat} (hi : i < v.bytes) :
    (fileImage s)[samplePointer s + i]? = (sampleBytes v w)[i]? := by
  have hsample : sampleOf s s.c.toNat s.f.toNat = w := by simp [sampleOf, hw]
  rw [h.fileImage_eq hv, samplePointer, h.bps_eq hv, hc.split, Nat.add_assoc,
    List.getElem?_append_right (by rw [headerImage_length]; omega), headerImage_length, Nat.add_sub_cancel_left,
    payloadBytes_getElem? _ hc.channel hc.frame_lt hi, hsample]

end FileImage

end Sys2Proof.Machine

/-! The bytes written so far are those of the file, step by step (40_commands.md R120). -/

namespace Sys2Proof.Machine

section FilePrefixSteps

variable {s t u : State} {v : Variant} {m : Memory}

/-! The invariant without its clause about HOST's sample data, which no step of ENC needs. -/

theorem PhaseInv.header (h : PhaseInv s) (hp : s.phase = .header) : s.hp.toNat ≤ 12 ∧ Live s := by
  simpa only [PhaseInv, hp] using h

theorem PhaseInv.payload (h : PhaseInv s) (hp : s.phase = .payload) : Counting s ∧ Live s := by
  simpa only [PhaseInv, hp] using h

theorem PhaseInv.done (h : PhaseInv s) (hp : s.phase = .done) : Live s := by
  simpa only [PhaseInv, hp] using h

/-! Which steps change SRC. -/

@[simp] theorem startCommand_src (s : State) : (startCommand s).src = s.src := by
  unfold startCommand
  split <;> rfl

@[simp] theorem acknowledge_src (s : State) : (acknowledge s).src = s.src := by
  unfold acknowledge
  split <;> rfl

@[simp] theorem ctrlEffect_src (w : Word) (s : State) : (ctrlEffect w s).src = s.src := by
  unfold ctrlEffect
  split <;> simp

@[simp] theorem regStore_src (s : State) (r : Reg) (v : Word) : (regStore s r v).src = s.src := by
  rcases regStore_cases s r v with h | ⟨-, h | h | h | h⟩ <;> rw [h] <;> rfl

/-- From s to t nothing but SEQ with its counters, the latched layout and OUT changed. -/
def OnlyEncodeChanged (s t : State) : Prop := ∃ l m, OnlySeqChanged ((s.setLay l).setOut m) t

theorem OnlyEncodeChanged.src_eq (h : OnlyEncodeChanged s t) : t.src = s.src := by
  obtain ⟨l, m, p, hp, k, f, c, rfl⟩ := h
  rfl

theorem OnlyEncodeChanged.fileImage_eq (h : OnlyEncodeChanged s t) : fileImage t = fileImage s := by
  obtain ⟨l, m, p, hp, k, f, c, rfl⟩ := h
  rfl

/-- A step of ENC changes neither an operand register nor anything of HOST's side. -/
theorem encTurn_onlyEncodeChanged (he : EncTurn s) (h : step s = .next t) : OnlyEncodeChanged (taken s) t := by
  rcases hp : s.phase
  case idle | done | error =>
    obtain rfl : taken s = t := by simpa [step_enc_rest he (by simp [hp])] using h
    exact ⟨s.lay, s.out, s.phase, s.hp, s.k, s.f, s.c, rfl⟩
  case check =>
    rcases hv : variantOf s.fmt with _ | v
    · obtain rfl : raiseUnsupportedFormat (taken s) = t := by simpa [step_enc_check_unsupported he hp hv] using h
      exact ⟨s.lay, s.out, .error, s.hp, s.k, s.f, s.c, rfl⟩
    · rw [step_enc_check he hp hv] at h
      obtain ⟨-, rfl⟩ := checkStep_next_iff.1 h
      exact ⟨_, some [], .header, 0#4, s.k, s.f, s.c, rfl⟩
  case header =>
    rcases Nat.lt_or_ge 12 s.hp.toNat with hh | hh
    · simp [step_enc_header_reserved he hp hh] at h
    · rw [step_enc_header he hp hh] at h
      obtain ⟨m, -, -, rfl⟩ := storeBytes_next_iff.1 h
      exact ⟨s.lay, _, afterRow_onlySeqChanged _ _⟩
  case payload =>
    obtain ⟨v, hv⟩ := exists_wsel_eq s.lay.wsel
    rw [step_enc_payload he hp hv] at h
    obtain ⟨w, m, -, -, -, rfl⟩ := sampleStep_next_iff.1 h
    exact ⟨s.lay, _, advanceSample_onlySeqChanged _⟩

/-- Only HOST's action on its sample data changes SRC (40_commands.md R127). -/
theorem src_eq_of_step (hs : ∀ c i w, ¬HostTurn s (.sample c i w)) (h : step s = .next t) : t.src = s.src := by
  rcases encTurn_or_hostTurn s with he | ⟨a, ha⟩
  · exact (encTurn_onlyEncodeChanged he h).src_eq
  · rcases step_hostAct_or_ctrlWrite ha with hstep | ⟨w, hstep⟩ <;> rw [hstep] at h
    · rcases hostAct_next_cases h with ⟨r, v, rfl⟩ | ⟨y, rfl⟩ | ⟨c, i, w, rfl, -⟩ | ⟨-, rfl⟩
      · exact regStore_src _ r v
      · rfl
      · exact absurd ha (hs c i w)
      · rfl
    · obtain rfl : ctrlEffect w (taken s) = t := by simpa using h
      exact ctrlEffect_src w _

/-! Writes at the write pointer. -/

theorem headerOffset_le (h : Nat) : headerOffset h ≤ 44 := by
  rcases Nat.lt_or_ge h 13 with hh | hh
  · interval_cases h <;> decide
  · simp [headerOffset, hh]

/-- Outside HEADER, PAYLOAD and DONE no byte is written (20_memory.md R67). -/
theorem filePrefix_of_atRest (hp : t.phase = .idle ∨ t.phase = .check ∨ t.phase = .error) : FilePrefix t := by
  have hnone : bytesWritten t = 0 := by rcases hp with hp | hp | hp <;> simp only [bytesWritten, hp]
  intro a ha
  omega

/-- Bytes of the file, written at the write pointer, keep `FilePrefix` when SEQ moves the pointer past them. -/
theorem FilePrefix.write {bs : List Byte} (h : FilePrefix u)
    (ht : OnlySeqChanged (u.withBytes m (bytesWritten u) bs) t) (hm : u.out = some m)
    (hw : bytesWritten t = bytesWritten u + bs.length)
    (hbs : ∀ i, i < bs.length → (fileImage u)[bytesWritten u + i]? = bs[i]?) : FilePrefix t := by
  have hfile : fileImage t = fileImage u := OnlyEncodeChanged.fileImage_eq ⟨u.lay, _, ht⟩
  have hout : t.out = some (Memory.writeBytes m (bytesWritten u) bs) := ht.out_eq
  intro a ha
  rw [hfile]
  rcases Nat.lt_or_ge a (bytesWritten u) with hold | hnew
  · rw [← h a hold, outByte, outByte, hout, hm, Option.bind_some, Option.bind_some,
      Memory.get?_writeBytes_outside (.inl hold)]
  · obtain ⟨i, rfl⟩ := Nat.exists_eq_add_of_le hnew
    have hi : i < bs.length := by omega
    rw [hbs i hi, outByte, hout, Option.bind_some, Memory.get?_writeBytes_inside hi]

theorem headerStep_filePrefix (h : FilePrefix u) (hlive : Live u) (hp : u.phase = .header) (hh : u.hp.toNat ≤ 12)
    (hm : u.out = some m) :
    FilePrefix (afterRow u.hp.toNat (u.withBytes m (headerOffset u.hp.toNat) (rowBytes u u.hp.toNat))) := by
  have hwp := bytesWritten_of_header hp
  have hnext := headerOffset_succ u hh
  have hlast : headerOffset (u.hp.toNat + 1) ≤ 44 := headerOffset_le _
  rw [← hwp]
  refine h.write (afterRow_onlySeqChanged _ _) hm ?_ fun i hi => ?_
  · rw [bytesWritten_afterRow (u := u.withBytes m _ _) hh hlive.flen_eq, hnext, hwp]
  · rw [hwp, hlive.fileImage_getElem?_header (by omega), headerImage_getElem?_row u hh hi]

theorem sampleStep_filePrefix {w : Word} (h : FilePrefix u) (hc : Counting u) (hlive : Live u)
    (hp : u.phase = .payload) (hv : u.lay.wsel = v.wsel) (hw : srcRead u u.c u.f = some w) (hm : u.out = some m) :
    FilePrefix (advanceSample (u.withBytes m (samplePointer u) (sampleBytes v w))) := by
  have hwp := bytesWritten_of_payload hp
  rw [← hwp]
  refine h.write (advanceSample_onlySeqChanged _) hm ?_ fun i hi => ?_
  · rw [bytesWritten_advanceSample (u := u.withBytes m _ _) hc.count hlive.flen_eq, sampleBytes_length, hwp,
      ← hlive.bps_eq hv]
    rfl
  · rw [hwp, hlive.fileImage_getElem?_sample hc hv hw (by simpa using hi)]

/-- A transition keeps `FilePrefix`, unless HOST changes its sample data outside IDLE. -/
theorem Transition.filePrefix (ht : Transition u t) (hinv : PhaseInv u) (h : FilePrefix u)
    (hsrc : u.phase ≠ .idle → t.src = u.src) : FilePrefix t := by
  cases ht with
  | hostSide d y =>
    by_cases hp : u.phase = .idle
    · exact filePrefix_of_atRest (.inl hp)
    · obtain rfl : d = u.src := hsrc hp
      exact h
  | operand fmt nch nfr srate hp => exact filePrefix_of_atRest (.inl hp)
  | start => exact filePrefix_of_atRest (.inr (.inl rfl))
  | ack => exact filePrefix_of_atRest (.inl rfl)
  | unsupported => exact filePrefix_of_atRest (.inr (.inr rfl))
  | check => exact fun a ha => absurd ha (Nat.not_lt_zero a)
  | header m hp hh hm => exact headerStep_filePrefix h (hinv.header hp).2 hp hh hm
  | sample v w m hp hv hw hm =>
    obtain ⟨hcount, hlive⟩ := hinv.payload hp
    exact sampleStep_filePrefix h hcount hlive hp hv hw hm

end FilePrefixSteps

/-- Settles O48: reset leaves nothing written, and every transition that keeps SRC writes bytes of the file at
the write pointer or none. -/
theorem stableEncodeWritesTheFile : Obligations.StableEncodeWritesTheFile := by
  intro s t hinv hprefix hstable hstep
  rcases step_next_cases hstep with ⟨-, rfl⟩ | ht
  · exact filePrefix_of_atRest (.inl rfl)
  · have hsrc : s.phase ≠ .idle → t.src = s.src := fun hp => src_eq_of_step (hstable hp) hstep
    exact ht.filePrefix hinv.taken.phase hprefix hsrc

end Sys2Proof.Machine

/-! The commands (40_commands.md): what CHECK, ACK and a busy block's registers do, and the encode from START
to its end. -/

namespace Sys2Proof.Machine

section Commands

variable {s : State} {v : Variant}

/-! One command at a time (R122, R125, R127). -/

theorem acknowledge_of_done_or_error (h : s.phase = .done ∨ s.phase = .error) :
    acknowledge s = (((s.setOut none).setLay Layout.zero).clearCounters).toPhase .idle := by
  rcases h with h | h <;> simp only [acknowledge, h]

theorem acknowledge_of_ne_done_error (hd : s.phase ≠ .done) (he : s.phase ≠ .error) : acknowledge s = s := by
  unfold acknowledge
  split
  · exact absurd ‹_› hd
  · exact absurd ‹_› he
  all_goals rfl

/-- The phases in which ENC has a step to take (10_state.md R30). -/
def Busy (s : State) : Prop := s.phase = .check ∨ s.phase = .header ∨ s.phase = .payload

theorem Busy.ne_rest (h : Busy s) : s.phase ≠ .idle ∧ s.phase ≠ .done ∧ s.phase ≠ .error := by
  rcases h with h | h | h <;> simp [h]

theorem busy_or_rest (s : State) : Busy s ∨ s.phase = .idle ∨ s.phase = .done ∨ s.phase = .error := by
  unfold Busy
  cases s.phase <;> simp

/-- A busy block takes no command (70_reset_and_hazards.md R240). -/
theorem ctrlEffect_of_busy (h : Busy s) (w : Word) : ctrlEffect w s = s := by
  obtain ⟨hidle, hdone, herror⟩ := h.ne_rest
  unfold ctrlEffect
  split
  · exact startCommand_of_ne_idle hidle
  · exact acknowledge_of_ne_done_error hdone herror
  · rfl

theorem checkStep_of_fits (h : fitsCap s.outCap (44 + s.nch.toNat * s.nfr.toNat * v.bytes) = true) :
    checkStep v s = .next (((s.setLay (Layout.of v s.nch s.nfr s.srate)).setOut (some [])).toHeader 0#4) :=
  checkStep_next_iff.2 ⟨by rwa [Layout.of_flen_toNat], rfl⟩

theorem checkStep_of_not_fits (h : fitsCap s.outCap (44 + s.nch.toNat * s.nfr.toNat * v.bytes) = false) :
    checkStep v s = .refused .outCapExceeded := by
  simp [checkStep, h]

end Commands

/-- Settles O21: `acknowledge` by phase. -/
theorem ackReleasesDoneAndError : Obligations.AckReleasesDoneAndError := by
  intro s
  refine ⟨fun hp => congrArg Host.Outcome.next (acknowledge_of_done_or_error hp), fun hp => ?_, rfl⟩
  refine congrArg Host.Outcome.next (acknowledge_of_ne_done_error ?_ ?_) <;>
    rcases hp with hp | hp | hp | hp <;> simp [hp]

/-- Settles O14: the offset names a register; a write of CTRL gives no command in a busy block, and a write of
another register stores nothing outside IDLE. -/
theorem busyBlockIgnoresRegisterWrites : Obligations.BusyBlockIgnoresRegisterWrites := by
  intro s offset v hbusy halign hmap h
  have hbusy : Busy s := hbusy
  obtain ⟨r, hr⟩ := exists_regAt_iff.2 ⟨rfl, halign, hmap⟩
  by_cases hc : r = .ctrl
  · rw [step_ctrlWrite h (hc ▸ hr), ctrlEffect_of_busy (s := taken s) hbusy]
    rfl
  · exact step_regWrite_of_ne_idle h hr hc hbusy.ne_rest.1

/-- Settles O17: CHECK runs exactly on a file that OUT_CAP admits, and `Layout.of` holds the numbers of R142. -/
theorem checkLatchesExactLayout : Obligations.CheckLatchesExactLayout := by
  intro s
  exact ⟨fun h => ⟨_, checkStep_of_fits (v := .int16) h, rfl, Layout.of_layoutIs .int16 s.nch s.nfr s.srate⟩,
    fun h => ⟨_, checkStep_of_fits (v := .float32) h, rfl, Layout.of_layoutIs .float32 s.nch s.nfr s.srate⟩,
    fun h => checkStep_of_not_fits (v := .int16) h, fun h => checkStep_of_not_fits (v := .float32) h⟩

/-! Progress: on ENC's turn a busy block takes a step and is one step nearer its end (R126, R243). -/

section Progress

variable {s t u : State} {v : Variant}

/-- OUT_CAP admits the file, if the selector is recognised (20_memory.md R66). -/
def FileAdmitted (s : State) : Prop :=
  ∀ v, variantOf s.fmt = some v → fitsCap s.outCap (44 + s.nch.toNat * s.nfr.toNat * v.bytes) = true

/-- ENC's step is enabled, brings the encode one step nearer its end, in a state that meets the invariant of
its phase, and ends in ERROR only if the selector is not recognised. -/
def Advances (s : State) : Prop :=
  ∃ t, step s = .next t ∧ stepsLeft t + 1 = stepsLeft s ∧ PhaseInv t ∧ t.phase ≠ .idle ∧
    (t.phase = .error → variantOf s.fmt = none)

theorem stepsLeft_of_check (hp : s.phase = .check) (hv : variantOf s.fmt = some v) :
    stepsLeft s = 14 + sampleCount s := by
  simp [stepsLeft, hp, hv]

theorem stepsLeft_of_check_unsupported (hp : s.phase = .check) (hv : variantOf s.fmt = none) : stepsLeft s = 1 := by
  simp [stepsLeft, hp, hv]

theorem stepsLeft_of_header (hp : s.phase = .header) : stepsLeft s = 13 - s.hp.toNat + sampleCount s := by
  simp only [stepsLeft, hp]

theorem stepsLeft_of_payload (hp : s.phase = .payload) : stepsLeft s = sampleCount s - s.k.toNat := by
  simp only [stepsLeft, hp]

theorem stepsLeft_of_rest (hp : s.phase = .idle ∨ s.phase = .done ∨ s.phase = .error) : stepsLeft s = 0 := by
  rcases hp with hp | hp | hp <;> simp only [stepsLeft, hp]

theorem PhaseInv.stepsLeft_pos (h : PhaseInv s) (hb : Busy s) : 0 < stepsLeft s := by
  rcases hb with hp | hp | hp
  · cases hv : variantOf s.fmt with
    | none => simp [stepsLeft_of_check_unsupported hp hv]
    | some v => rw [stepsLeft_of_check hp hv]; omega
  · have := (h.header hp).1
    rw [stepsLeft_of_header hp]
    omega
  · have := (h.payload hp).1.count
    rw [stepsLeft_of_payload hp]
    omega

/-- Outside IDLE an encode is over exactly in DONE and ERROR. -/
theorem PhaseInv.stepsLeft_eq_zero_iff (h : PhaseInv s) (hidle : s.phase ≠ .idle) :
    stepsLeft s = 0 ↔ s.phase = .done ∨ s.phase = .error := by
  constructor
  · intro hzero
    have hb : ¬Busy s := fun hb => (h.stepsLeft_pos hb).ne' hzero
    exact ((busy_or_rest s).resolve_left hb).resolve_left hidle
  · exact fun hp => stepsLeft_of_rest (.inr hp)

theorem OnlySeqChanged.sampleCount_eq (h : OnlySeqChanged s t) : sampleCount t = sampleCount s := by
  obtain ⟨p, hp, k, f, c, rfl⟩ := h
  rfl

theorem stepsLeft_afterRow {h : Nat} (hh : h ≤ 12) : stepsLeft (afterRow h u) = 12 - h + sampleCount u := by
  have hN := (afterRow_onlySeqChanged h u).sampleCount_eq
  rcases afterRow_seq (u := u) hh with ⟨hlt, hp, hnext⟩ | ⟨rfl, -, hp, hk⟩ | ⟨rfl, hzero, hp⟩
  · rw [stepsLeft_of_header hp, hnext, hN]
    omega
  · rw [stepsLeft_of_payload hp, hk, hN]
    simp
  · rw [stepsLeft_of_rest (.inr (.inl hp)), hzero]

theorem stepsLeft_advanceSample (hk : u.k.toNat < sampleCount u) :
    stepsLeft (advanceSample u) + 1 = sampleCount u - u.k.toNat := by
  have hN := (advanceSample_onlySeqChanged u).sampleCount_eq
  rcases advanceSample_seq hk with ⟨hmore, hp, hnext⟩ | ⟨hlast, hp⟩
  · rw [stepsLeft_of_payload hp, hnext, hN]
    omega
  · rw [stepsLeft_of_rest (.inr (.inl hp))]
    omega

/-- An encode under way goes on or is done: it neither raises the error nor falls back to IDLE (R30). -/
theorem afterRow_phase_ne (h : Nat) (u : State) : (afterRow h u).phase ≠ .idle ∧ (afterRow h u).phase ≠ .error := by
  unfold afterRow afterHeader
  split_ifs <;> simp

theorem advanceSample_phase_ne (u : State) : (advanceSample u).phase ≠ .idle ∧ (advanceSample u).phase ≠ .error := by
  unfold advanceSample
  split_ifs <;> simp

theorem check_advances (he : EncTurn s) (hp : s.phase = .check) (h : PhaseInv s) (hfits : FileAdmitted s) :
    Advances s := by
  cases hv : variantOf s.fmt with
  | none =>
    have hrest : AtRest s := by simpa only [PhaseInv, hp] using h
    refine ⟨_, step_enc_check_unsupported he hp hv, ?_, ?_, nofun, fun _ => hv⟩
    · rw [stepsLeft_of_rest (.inr (.inr rfl)), stepsLeft_of_check_unsupported hp hv]
    · exact (hrest.setHostSide s.agenda.tail s.src s.reply).toPhase .error
  | some v =>
    have hcap := hfits v hv
    refine ⟨_, (step_enc_check he hp hv).trans (checkStep_of_fits (s := taken s) hcap), ?_,
      checked_phaseInv (u := taken s) hv (by rwa [Layout.of_flen_toNat]), nofun, nofun⟩
    rw [stepsLeft_of_header rfl, stepsLeft_of_check hp hv]
    change 13 + sampleCount s + 1 = _
    omega

/-- The header lies inside every file, so each of its rows fits (20_memory.md R68). -/
theorem Live.row_fits (h : Live s) (hh : s.hp.toNat ≤ 12) :
    headerOffset s.hp.toNat + (rowBytes s s.hp.toNat).length ≤ s.lay.flen.toNat := by
  have := headerOffset_le (s.hp.toNat + 1)
  rw [← headerOffset_succ s hh, h.flen_eq]
  omega

theorem header_advances (he : EncTurn s) (hp : s.phase = .header) (h : PhaseInv s) : Advances s := by
  obtain ⟨hh, hlive⟩ := h.header hp
  obtain ⟨m, hm, -⟩ := hlive.buffer
  obtain ⟨hidle, herror⟩ := afterRow_phase_ne s.hp.toNat
    ((taken s).withBytes m (headerOffset s.hp.toNat) (rowBytes s s.hp.toNat))
  refine ⟨_, (step_enc_header he hp hh).trans (storeBytes_of_fits (s := taken s) hm (hlive.row_fits hh)), ?_,
    headerStep_phaseInv (u := taken s) (hlive.setHostSide s.agenda.tail s.src s.reply) hp hh hm, hidle,
    fun hbad => absurd hbad herror⟩
  rw [stepsLeft_afterRow hh, stepsLeft_of_header hp]
  change 12 - s.hp.toNat + sampleCount s + 1 = _
  omega

/-- K < N leaves room for sample K (10_state.md R32). -/
theorem Live.sample_fits (h : Live s) (hk : s.k.toNat < sampleCount s) (hv : s.lay.wsel = v.wsel) :
    samplePointer s + v.bytes ≤ s.lay.flen.toNat := by
  have hroom : (s.k.toNat + 1) * v.bytes ≤ sampleCount s * v.bytes := Nat.mul_le_mul_right _ hk
  rw [Nat.add_mul] at hroom
  rw [samplePointer, h.flen_eq, h.bps_eq hv]
  omega

theorem payload_advances (he : EncTurn s) (hp : s.phase = .payload) (h : PhaseInv s) (hcov : SrcCovers s) :
    Advances s := by
  obtain ⟨hc, hlive⟩ := h.payload hp
  obtain ⟨m, hm, -⟩ := hlive.buffer
  obtain ⟨v, hv⟩ := exists_wsel_eq s.lay.wsel
  obtain ⟨w, hw⟩ : ∃ w, srcRead s s.c s.f = some w := by
    simpa [Option.isSome_iff_exists] using hcov s.c.toNat s.f.toNat hc.channel hc.frame_lt
  have hfit : samplePointer s + (sampleBytes v w).length ≤ s.lay.flen.toNat := by
    simpa using hlive.sample_fits hc.count hv
  obtain ⟨hidle, herror⟩ := advanceSample_phase_ne ((taken s).withBytes m (samplePointer s) (sampleBytes v w))
  refine ⟨_, (step_enc_payload he hp hv).trans (sampleStep_next_iff.2 ⟨w, m, hw, hm, hfit, rfl⟩), ?_,
    sampleStep_phaseInv (u := taken s) (hc.setHostSide s.agenda.tail s.src s.reply)
      (hlive.setHostSide s.agenda.tail s.src s.reply) hp hv hm, hidle, fun hbad => absurd hbad herror⟩
  rw [stepsLeft_of_payload hp]
  exact stepsLeft_advanceSample (u := (taken s).withBytes m (samplePointer s) (sampleBytes v w)) hc.count

theorem busy_advances (h : PhaseInv s) (he : EncTurn s) (hcov : SrcCovers s) (hb : Busy s) (hfits : FileAdmitted s) :
    Advances s := by
  rcases hb with hp | hp | hp
  · exact check_advances he hp h hfits
  · exact header_advances he hp h
  · exact payload_advances he hp h hcov

end Progress

/-- Settles O47: `busy_advances`, and outside IDLE none are left exactly in DONE and ERROR. -/
theorem busyBlockAlwaysFinishes : Obligations.BusyBlockAlwaysFinishes := by
  intro s hinv he hcov hbusy hfits
  obtain ⟨t, hstep, hleft, hphase, hidle, -⟩ := busy_advances hinv.phase he hcov hbusy hfits
  exact ⟨t, hstep, hleft, hphase.stepsLeft_eq_zero_iff hidle⟩

/-! The encode as one run (R120, R126). -/

section Run

variable {s t u : State} {v : Variant}

theorem run_succ (h : step s = .next t) (n : Nat) : Host.Core.run core (n + 1) s = Host.Core.run core n t := by
  have h : core.step s = .next t := h
  simp only [Host.Core.run, h]

theorem OnlyEncodeChanged.refl (s : State) : OnlyEncodeChanged s s :=
  ⟨s.lay, s.out, s.phase, s.hp, s.k, s.f, s.c, rfl⟩

theorem OnlyEncodeChanged.trans (h : OnlyEncodeChanged s t) (h' : OnlyEncodeChanged t u) : OnlyEncodeChanged s u := by
  obtain ⟨l, m, p, hp, k, f, c, rfl⟩ := h
  obtain ⟨l', m', p', hp', k', f', c', rfl⟩ := h'
  exact ⟨l', m', p', hp', k', f', c', rfl⟩

theorem taken_of_agenda_nil (h : s.agenda = []) : taken s = s := by
  rw [taken, h, List.tail_nil, ← h]
  rfl

/-- What holds along an undisturbed encode of a recognised selector: the invariant and `FilePrefix`, no action
of HOST to come, the samples supplied, and the file admitted. -/
structure Encoding (s : State) : Prop where
  inv : PhaseInv s
  filePrefix : FilePrefix s
  agenda : s.agenda = []
  covers : SrcCovers s
  admitted : FileAdmitted s
  selector : (variantOf s.fmt).isSome
  ne_idle : s.phase ≠ .idle
  ne_error : s.phase ≠ .error

theorem Encoding.busy_or_done (h : Encoding s) : Busy s ∨ s.phase = .done :=
  (busy_or_rest s).imp_right fun hp => (hp.resolve_left h.ne_idle).resolve_right h.ne_error

/-- Each step of the encode keeps that, and is one of those still to come. -/
theorem Encoding.exists_step (h : Encoding s) (hb : Busy s) :
    ∃ t, step s = .next t ∧ stepsLeft t + 1 = stepsLeft s ∧ Encoding t ∧ OnlyEncodeChanged s t := by
  have he : EncTurn s := .inl h.agenda
  obtain ⟨t, hstep, hleft, hinv, hidle, herror⟩ := busy_advances h.inv he h.covers hb h.admitted
  have hchanged := encTurn_onlyEncodeChanged he hstep
  have htrans := encTurn_transition he hstep
  rw [taken_of_agenda_nil h.agenda] at hchanged htrans
  have hprefix := htrans.filePrefix h.inv h.filePrefix fun _ => hchanged.src_eq
  have herror : t.phase ≠ .error := fun hbad => by simpa [herror hbad] using h.selector
  refine ⟨t, hstep, hleft, ?_, hchanged⟩
  obtain ⟨l, m, p, hp, k, f, c, rfl⟩ := hchanged
  exact ⟨hinv, hprefix, h.agenda, h.covers, h.admitted, h.selector, hidle, herror⟩

/-- The steps still to come lead to DONE. -/
theorem Encoding.run_stepsLeft {n : Nat} (h : Encoding s) (hn : stepsLeft s = n) :
    ∃ t, Host.Core.run core n s = .next t ∧ t.phase = .done ∧ Encoding t ∧ OnlyEncodeChanged s t := by
  induction n generalizing s with
  | zero =>
    have hdone := ((h.inv.stepsLeft_eq_zero_iff h.ne_idle).1 hn).resolve_right h.ne_error
    exact ⟨s, rfl, hdone, h, .refl s⟩
  | succ n ih =>
    have hb : Busy s := h.busy_or_done.resolve_right fun hp => by
      simp [stepsLeft_of_rest (.inr (.inl hp))] at hn
    obtain ⟨t, hstep, hleft, ht, hchanged⟩ := h.exists_step hb
    obtain ⟨u, hrun, hdone, hu, hrest⟩ := ih ht (by omega)
    exact ⟨u, by rw [run_succ hstep, hrun], hdone, hu, hchanged.trans hrest⟩

/-- In DONE the whole file stands in OUT, and nothing beyond it. -/
theorem Live.outByte_eq_of_done (h : Live s) (hprefix : FilePrefix s) (hp : s.phase = .done) (a : Nat) :
    outByte s a = (fileImage s)[a]? := by
  by_cases ha : a < bytesWritten s
  · exact hprefix a ha
  · have hnone : outByte s a = none := Option.not_isSome_iff_eq_none.1 (mt (h.outByte_isSome_iff a).1 ha)
    rw [bytesWritten_of_done hp, ← h.fileImage_length] at ha
    rw [hnone, List.getElem?_eq_none (by omega)]

/-- START in IDLE, with nothing of HOST to follow (R121). -/
theorem step_start (hp : s.phase = .idle) (ha : s.agenda = [startEvent]) :
    step s = .next ((s.setAgenda []).toPhase .check) := by
  have hturn : HostTurn s (.regWrite 0x00 4 1#32) := by simp [HostTurn, ha, startEvent]
  have htaken : taken s = s.setAgenda [] := by rw [taken, ha]; rfl
  rw [step_ctrlWrite hturn rfl, htaken]
  exact congrArg Host.Outcome.next (startCommand_of_idle (s := s.setAgenda []) hp)

theorem started_encoding (hrest : AtRest s) (hv : variantOf s.fmt = some v) (hcov : SrcCovers s)
    (hcap : fitsCap s.outCap (44 + s.nch.toNat * s.nfr.toNat * v.bytes) = true) :
    Encoding ((s.setAgenda []).toPhase .check) where
  inv := (hrest.setHostSide [] s.src s.reply).toPhase .check
  filePrefix := filePrefix_of_atRest (.inr (.inl rfl))
  agenda := rfl
  covers := hcov
  admitted := fun v' hv' => by
    obtain rfl : v = v' := Option.some.inj (hv.symm.trans hv')
    exact hcap
  selector := by simp [hv]
  ne_idle := nofun
  ne_error := nofun

theorem encodeFile_eq_none_iff {fmt : BitVec 32} {nch nfr srate : Nat} {src : Nat → Nat → Word} :
    encodeFile fmt nch nfr srate src = none ↔ variantOf fmt = none := by
  simp [encodeFile]

theorem length_of_encodeFile {fmt : BitVec 32} {nch nfr srate : Nat} {src : Nat → Nat → Word} {file : List Byte}
    (h : encodeFile fmt nch nfr srate src = some file) :
    ∃ v, variantOf fmt = some v ∧ file.length = 44 + nch * nfr * v.bytes := by
  cases hv : variantOf fmt with
  | none => simp [encodeFile_eq_none_iff.2 hv] at h
  | some v =>
    rw [encodeFile_of_variantOf hv] at h
    obtain rfl := Option.some.inj h
    exact ⟨v, rfl, by rw [List.length_append, header_length, payloadBytes_length]⟩

end Run

/-- Settles O49: START begins an encode, whose steps lead to DONE with the file in OUT; on an unrecognised
selector CHECK raises the error. -/
theorem encodeReachesDoneWithTheFile : Obligations.EncodeReachesDoneWithTheFile := by
  intro s hp hrest ha
  refine ⟨fun file hfile hcov hcap => ?_, fun hnone => ?_⟩
  · obtain ⟨v, hv, hlen⟩ := length_of_encodeFile hfile
    have henc := started_encoding hrest hv hcov (hlen ▸ hcap)
    obtain ⟨t, hrun, hdone, ht, hchanged⟩ := henc.run_stepsLeft (stepsLeft_of_check rfl hv)
    have hlive : Live t := ht.inv.done hdone
    have himage : fileImage t = file := by
      rw [hchanged.fileImage_eq]
      exact congrArg (Option.getD · []) hfile
    refine ⟨t, ?_, hdone, by rw [← hlive.fileImage_length, himage],
      fun a => himage ▸ hlive.outByte_eq_of_done ht.filePrefix hdone a, ?_⟩
    · rw [Nat.add_comm 1, run_succ (step_start hp ha)]
      exact hrun
    · obtain ⟨l, m, p, h, k, f, c, rfl⟩ := hchanged
      exact ⟨rfl, rfl, rfl, rfl, rfl⟩
  · have hcheck := step_enc_check_unsupported (s := (s.setAgenda []).toPhase .check) (.inl rfl) rfl
      (encodeFile_eq_none_iff.1 hnone)
    exact ⟨_, (run_succ (step_start hp ha) 1).trans (run_succ hcheck 0), rfl, hrest.out⟩

end Sys2Proof.Machine

/-! The header steps one by one: each writes its field at its offset and moves SEQ on (41_header_marshaller.md R146 to
R158), thirteen of them in a row write the header (R145), and a header read back field by field (R160, R161). -/

namespace Sys2Proof.Machine

section HeaderWrites

variable {s t : State} {m : Memory} {a n v w : Nat} {bs : List Byte}

theorem wroteBytes_of_out (hm : s.out = some m) (ht : t.out = some (Memory.writeBytes m a bs)) :
    WroteBytes s t a bs := by
  refine ⟨fun i hi => ?_, fun x hx => ?_⟩
  · rw [outByte, ht, Option.bind_some, Memory.get?_writeBytes_inside hi]
  · rw [outByte, outByte, ht, hm, Option.bind_some, Option.bind_some, Memory.get?_writeBytes_outside hx]

/-- The bytes of a number, read back, are the number mod 2^(8n), which is the truncation of R144. -/
theorem wroteNum_of_out (hm : s.out = some m) (ht : t.out = some (Memory.writeBytes m a (leBytes n v))) :
    WroteNum s t a n (v % 2 ^ (8 * n)) := by
  have hread := memRead_writeBytes m a (leBytes n v)
  have hothers := (wroteBytes_of_out hm ht).2
  rw [leBytes_length] at hread hothers
  exact ⟨by rw [outNum, ht, Option.bind_some, hread, leValue_leBytes], hothers⟩

theorem OutReady.exists_storeBytes (h : OutReady s a n) (hlen : bs.length = n) :
    ∃ m, s.out = some m ∧ ∀ after, storeBytes s a bs after = .next (after (s.withBytes m a bs)) := by
  obtain ⟨hsome, hfit⟩ := h
  obtain ⟨m, hm⟩ := Option.isSome_iff_exists.1 hsome
  exact ⟨m, hm, fun after => storeBytes_of_fits hm (hlen ▸ hfit)⟩

/-- What H0, H2, H3 and H11 do. -/
theorem memWriteTag_toHeader (tag : Tag) (hp : BitVec 4) (h : OutReady s a 4) :
    ∃ t, memWriteTag s a tag (·.toHeader hp) = .next t ∧
      t = { s with phase := .header, hp := hp, out := t.out } ∧ WroteBytes s t a (tagBytes tag) := by
  obtain ⟨m, hm, hstore⟩ := h.exists_storeBytes (tagBytes_length tag)
  exact ⟨_, hstore _, rfl, wroteBytes_of_out hm rfl⟩

/-- What H1 and H4 to H10 do. -/
theorem memWrite_toHeader (hp : BitVec 4) (h : OutReady s a n) (hw : v % 2 ^ (8 * n) = w) :
    ∃ t, memWrite s a n v (·.toHeader hp) = .next t ∧
      t = { s with phase := .header, hp := hp, out := t.out } ∧ WroteNum s t a n w := by
  obtain ⟨m, hm, hstore⟩ := h.exists_storeBytes (leBytes_length n v)
  exact ⟨_, hstore _, rfl, hw ▸ wroteNum_of_out hm rfl⟩

/-- A value no wider than its field is written whole. -/
theorem memWrite_toHeader_toNat (hp : BitVec 4) (h : OutReady s a n) (x : BitVec (8 * n)) :
    ∃ t, memWrite s a n x.toNat (·.toHeader hp) = .next t ∧
      t = { s with phase := .header, hp := hp, out := t.out } ∧ WroteNum s t a n x.toNat :=
  memWrite_toHeader hp h (Nat.mod_eq_of_lt x.isLt)

theorem afterHeader_of_pos (hN : 0 < sampleCount s) : afterHeader s = s.toPayload 0#48 0#32 0#16 := if_pos hN

theorem afterHeader_of_zero (hN : sampleCount s = 0) : afterHeader s = s.toPhase .done := if_neg (by omega)

theorem afterHeader_phase (s : State) :
    (afterHeader s).phase = if 0 < sampleCount s then .payload else .done :=
  apply_ite State.phase ..

end HeaderWrites

/-- Settles O22: each of the four is `memWriteTag` with its tag and offset. -/
theorem headerTagSteps : Obligations.HeaderTagSteps := fun _ =>
  ⟨memWriteTag_toHeader .riff 1#4, memWriteTag_toHeader .wave 3#4, memWriteTag_toHeader .fmt 4#4,
    memWriteTag_toHeader .data 12#4⟩

/-- Settles O23: each of the four is `memWrite` of its value in 4 bytes, and FLEN - 8 = 36 + DLEN (R147). -/
theorem headerWordSteps : Obligations.HeaderWordSteps := by
  intro s
  refine ⟨fun h => ?_, fun h => memWrite_toHeader 5#4 h rfl, fun h => memWrite_toHeader_toNat 8#4 h s.srate,
    fun h => memWrite_toHeader 9#4 h rfl⟩
  obtain ⟨t, hexec, ht, hw⟩ := memWrite_toHeader 2#4 h (v := s.lay.flen.toNat - 8) rfl
  refine ⟨t, hexec, ht, hw, fun hflen => ?_⟩
  have hsize : s.lay.flen.toNat - 8 = 36 + s.lay.dlen.toNat := by omega
  exact hsize ▸ hw

/-- Settles O24: each of the four is `memWrite` of its value in 2 bytes; BPF alone is wider than its field. -/
theorem headerHalfwordSteps : Obligations.HeaderHalfwordSteps := fun s =>
  ⟨fun h => memWrite_toHeader_toNat 6#4 h s.lay.afmt, fun h => memWrite_toHeader_toNat 7#4 h s.nch,
    fun h => memWrite_toHeader 10#4 h rfl, fun h => memWrite_toHeader_toNat 11#4 h s.lay.bits⟩

/-- Settles O25: H12 is `memWrite` of DLEN followed by `afterHeader`, which leaves OUT alone. -/
theorem lastHeaderStepEntersPayloadOrDone : Obligations.LastHeaderStepEntersPayloadOrDone := by
  intro s h
  obtain ⟨m, hm, hstore⟩ := h.exists_storeBytes (leBytes_length 4 s.lay.dlen.toNat)
  refine ⟨_, hstore afterHeader, wroteNum_of_out hm (afterRow_onlySeqChanged 12 _).out_eq, fun hN => ?_, fun hN => ?_⟩
  · rw [afterHeader_of_pos (s := s.withBytes m 40 _) hN]
    rfl
  · rw [afterHeader_of_zero (s := s.withBytes m 40 _) hN]
    rfl

/-! Thirteen header steps in a row. -/

section HeaderRun

variable {s t : State} {h : Nat}

/-- From s to t the header of the latched values was written from offset a on, and nothing but OUT, SEQ and its
counters changed; SEQ left HEADER. -/
structure WroteHeaderFrom (s t : State) (a : Nat) : Prop where
  image : ∀ x, a ≤ x → x < 44 → outByte t x = (headerImage s)[x]?
  others : ∀ x, x < a ∨ 44 ≤ x → outByte t x = outByte s x
  phase : t.phase = if 0 < sampleCount s then .payload else .done
  frame : ∃ m, OnlySeqChanged (s.setOut m) t

/-- Row h of the header table, written at its offset, is the header there (R143, R145). -/
theorem WroteBytes.outByte_row (hw : WroteBytes s t (headerOffset h) (rowBytes s h)) (hh : h ≤ 12) {x : Nat}
    (hlo : headerOffset h ≤ x) (hhi : x < headerOffset (h + 1)) : outByte t x = (headerImage s)[x]? := by
  obtain ⟨i, rfl⟩ := Nat.exists_eq_add_of_le hlo
  have hi : i < (rowBytes s h).length := by
    rw [headerOffset_succ s hh] at hhi
    omega
  rw [hw.1 i hi, headerImage_getElem?_row s hh hi]

/-- A header step with room for the header writes its row, then SEQ goes on. -/
theorem exists_headerStep (hp : s.phase = .header) (hh : s.hp.toNat ≤ 12) (ha : s.agenda = [])
    (hready : OutReady s 0 44) :
    ∃ m, step s = .next (afterRow s.hp.toNat (s.setOut (some m))) ∧
      WroteBytes s (s.setOut (some m)) (headerOffset s.hp.toNat) (rowBytes s s.hp.toNat) := by
  have hfit : OutReady s (headerOffset s.hp.toNat) (rowBytes s s.hp.toNat).length := by
    have hend := headerOffset_le (s.hp.toNat + 1)
    rw [headerOffset_succ s hh] at hend
    exact ⟨hready.1, by have := hready.2; omega⟩
  obtain ⟨m, hm, hstore⟩ := hfit.exists_storeBytes rfl
  refine ⟨_, ?_, wroteBytes_of_out hm rfl⟩
  rw [step_enc_header (.inl ha) hp hh, taken_of_agenda_nil ha]
  exact hstore _

/-- The last header step (R158). -/
theorem wroteHeaderFrom_last {m : Memory}
    (hw : WroteBytes s (s.setOut (some m)) (headerOffset 12) (rowBytes s 12)) :
    WroteHeaderFrom s (afterHeader (s.setOut (some m))) (headerOffset 12) := by
  have hseq : OnlySeqChanged (s.setOut (some m)) (afterHeader (s.setOut (some m))) := afterRow_onlySeqChanged 12 _
  have hbyte (x : Nat) : outByte (afterHeader (s.setOut (some m))) x = outByte (s.setOut (some m)) x := by
    rw [outByte, hseq.out_eq, outByte]
  exact ⟨fun x hlo hhi => (hbyte x).trans (hw.outByte_row le_rfl hlo hhi), fun x hx => (hbyte x).trans (hw.2 x hx),
    afterHeader_phase _, _, hseq⟩

/-- A header step before the last one, then the rest of the header. -/
theorem WroteHeaderFrom.cons {m : Memory} {hp : BitVec 4} (hh : h ≤ 12)
    (hw : WroteBytes s (s.setOut (some m)) (headerOffset h) (rowBytes s h))
    (hrest : WroteHeaderFrom ((s.setOut (some m)).toHeader hp) t (headerOffset (h + 1))) :
    WroteHeaderFrom s t (headerOffset h) := by
  have hnext := headerOffset_succ s hh
  have hend := headerOffset_le (h + 1)
  obtain ⟨himage, hothers, hphase, m', p, hp', k, f, c, rfl⟩ := hrest
  refine ⟨fun x hlo hhi => ?_, fun x hx => ?_, hphase, m', p, hp', k, f, c, rfl⟩
  · rcases Nat.lt_or_ge x (headerOffset (h + 1)) with hrow | hlater
    · exact (hothers x (.inl hrow)).trans (hw.outByte_row hh hlo hrow)
    · exact himage x hlater hhi
  · exact (hothers x (by omega)).trans (hw.2 x (by omega))

/-- The header steps still to come write the rest of the header. -/
theorem run_headerSteps {n : Nat} (hp : s.phase = .header) (hn : s.hp.toNat + n = 12) (ha : s.agenda = [])
    (hready : OutReady s 0 44) :
    ∃ t, Host.Core.run core (n + 1) s = .next t ∧ WroteHeaderFrom s t (headerOffset s.hp.toNat) := by
  induction n generalizing s with
  | zero =>
    obtain ⟨m, hstep, hw⟩ := exists_headerStep hp (by omega) ha hready
    have hlast : s.hp.toNat = 12 := hn
    rw [hlast] at hstep hw ⊢
    exact ⟨_, run_succ hstep 0, wroteHeaderFrom_last hw⟩
  | succ n ih =>
    obtain ⟨m, hstep, hw⟩ := exists_headerStep hp (by omega) ha hready
    rw [afterRow, if_pos (by omega)] at hstep
    have hnext : (BitVec.ofNat 4 (s.hp.toNat + 1)).toNat = s.hp.toNat + 1 := by
      rw [BitVec.toNat_ofNat, Nat.mod_eq_of_lt (by omega)]
    obtain ⟨t, hrun, hrest⟩ := ih (s := (s.setOut (some m)).toHeader (BitVec.ofNat 4 (s.hp.toNat + 1))) rfl
      (by rw [State.toHeader_hp, hnext]; omega) ha ⟨rfl, hready.2⟩
    rw [State.toHeader_hp, hnext] at hrest
    exact ⟨t, (run_succ hstep _).trans hrun, hrest.cons (by omega) hw⟩

end HeaderRun

/-- Settles O26: the thirteen steps write the header from offset 0 on. -/
theorem headerStepsWriteTheHeader : Obligations.HeaderStepsWriteTheHeader := by
  intro s hp hhp ha hready
  obtain ⟨t, hrun, hheader⟩ := run_headerSteps hp (n := 12) (by rw [hhp]; rfl) ha hready
  rw [hhp] at hheader
  obtain ⟨himage, hothers, hphase, m, p, h, k, f, c, rfl⟩ := hheader
  exact ⟨_, hrun, fun a => himage a (Nat.zero_le a), fun a hx => hothers a (.inr hx), hphase, rfl⟩

/-! The header read back field by field. -/

section HeaderFields

variable {afmt bits nch srate bpsec bpf dlen flen : Nat}

/-- The rows of the header table (R143), with the header's arguments as numbers. -/
def headerRows (afmt bits nch srate bpsec bpf dlen flen : Nat) : List (List Byte) :=
  [tagBytes .riff, leBytes 4 (flen - 8), tagBytes .wave, tagBytes .fmt, leBytes 4 16, leBytes 2 afmt, leBytes 2 nch,
    leBytes 4 srate, leBytes 4 bpsec, leBytes 2 bpf, leBytes 2 bits, tagBytes .data, leBytes 4 dlen]

theorem header_eq_flatten :
    header afmt bits nch srate bpsec bpf dlen flen = (headerRows afmt bits nch srate bpsec bpf dlen flen).flatten := by
  simp [header, headerRows]

theorem headerOffset_eq_sum {i : Nat} (hi : i < 13) :
    headerOffset i = (((headerRows afmt bits nch srate bpsec bpf dlen flen).map List.length).take i).sum := by
  simp only [headerRows, List.map_cons, List.map_nil, tagBytes_length, leBytes_length]
  interval_cases i <;> rfl

/-- Row i of the table stands at its offset in the header. -/
theorem take_drop_header {i : Nat} {bs : List Byte}
    (hrow : (headerRows afmt bits nch srate bpsec bpf dlen flen)[i]? = some bs) :
    ((header afmt bits nch srate bpsec bpf dlen flen).drop (headerOffset i)).take bs.length = bs := by
  obtain ⟨hi, rfl⟩ := List.getElem?_eq_some_iff.1 hrow
  have hblock := List.drop_take_succ_flatten_eq_getElem _ i hi
  rwa [List.drop_take, List.sum_take_succ _ _ (by simpa using hi), Nat.add_sub_cancel_left, List.getElem_map,
    ← header_eq_flatten, ← headerOffset_eq_sum hi] at hblock

theorem headerField_of_row {i n v : Nat}
    (hrow : (headerRows afmt bits nch srate bpsec bpf dlen flen)[i]? = some (leBytes n v)) (hv : v < 2 ^ (8 * n)) :
    headerField (header afmt bits nch srate bpsec bpf dlen flen) (headerOffset i) n = v := by
  have htake := take_drop_header hrow
  rw [leBytes_length] at htake
  rw [headerField, htake, leValue_leBytes, Nat.mod_eq_of_lt hv]

theorem Variant.audioFormat_bits_cases (v : Variant) :
    v.audioFormat = 1 ∧ v.bits = 16 ∨ v.audioFormat = 3 ∧ v.bits = 32 := by
  cases v <;> decide

/-- bitsPerSample is a whole number of bytes (R141). -/
theorem Variant.bits_eq (v : Variant) : v.bits = v.bytes * 8 := by cases v <;> rfl

end HeaderFields

/-- Settles O27: the tags and fields are rows of the table, read back whole where the value is no wider than its
field, which for ChunkSize, ByteRate, BlockAlign and Subchunk2Size is what `Fits` says. -/
theorem fitsMakesHeaderFieldsExact : Obligations.FitsMakesHeaderFieldsExact := by
  intro v nch nfr srate hnch hsrate h
  have hcases := v.audioFormat_bits_cases
  have hformat : headerField h 20 2 = v.audioFormat := headerField_of_row (i := 5) rfl (by omega)
  have hchannels : headerField h 22 2 = nch := headerField_of_row (i := 6) rfl hnch
  have hrate : headerField h 24 4 = srate := headerField_of_row (i := 7) rfl hsrate
  have hbits : headerField h 34 2 = v.bits := headerField_of_row (i := 10) rfl (by omega)
  refine ⟨⟨header_length .., take_drop_header (i := 0) rfl, take_drop_header (i := 2) rfl,
    take_drop_header (i := 3) rfl, take_drop_header (i := 11) rfl, headerField_of_row (i := 4) rfl (by decide),
    hchannels, hrate, hformat, hbits, by rwa [hformat, hbits]⟩, fun ⟨hframe, hsecond, hdata⟩ => ?_⟩
  have hchunk : headerField h 4 4 = 36 + nch * nfr * v.bytes :=
    (headerField_of_row (i := 1) rfl (by omega)).trans (by omega)
  have hbyteRate : headerField h 28 4 = srate * (nch * v.bytes) :=
    headerField_of_row (i := 8) rfl (by rwa [← Nat.mul_assoc])
  have halign : headerField h 32 2 = nch * v.bytes := headerField_of_row (i := 9) rfl hframe
  have hlength : headerField h 40 4 = nch * nfr * v.bytes := headerField_of_row (i := 12) rfl (by omega)
  refine ⟨hchunk, hbyteRate, halign, hlength, by rw [hchunk, hlength], by rw [hbyteRate, hrate, halign], ?_, ?_⟩
  · rw [halign, hchannels, hbits, v.bits_eq, ← Nat.mul_assoc, Nat.mul_div_cancel _ (by decide)]
  · rw [hlength, halign, Nat.mul_right_comm]

end Sys2Proof.Machine

/-! The quantizer (42_quantizer.md). Rounding to the nearest integer with a tie rule (R173) is one relation on
rationals, `IsRounding`, which has one solution. That the integer quantizer meets the definition over the rationals
(R178), and the properties of R180, follow from it; the bit-level form (R179) is the integer quantizer in three ranges
of the exponent. -/

namespace Sys2Proof.Machine

section Rounding

variable {tie : Tie} {x y : ℚ} {q r : ℤ}

/-- Which neighbour a tie takes: the one farther from zero, or the even one (R173). -/
def TieChoice : Tie → ℚ → ℤ → Prop
  | .away, y, r => |y| < |(r : ℚ)|
  | .even, _, r => Even r

/-- r is y rounded to the nearest integer, a tie going where the rule says (R173). -/
structure IsRounding (tie : Tie) (y : ℚ) (r : ℤ) : Prop where
  near : |(r : ℚ) - y| ≤ 1 / 2
  choice : |(r : ℚ) - y| = 1 / 2 → TieChoice tie y r

theorem tieChoice_neg_iff : TieChoice tie (-y) (-r) ↔ TieChoice tie y r := by
  cases tie <;> simp [TieChoice]

theorem IsRounding.neg (h : IsRounding tie y r) : IsRounding tie (-y) (-r) := by
  have hdist : |((-r : ℤ) : ℚ) - -y| = |(r : ℚ) - y| := by
    rw [abs_sub_comm]
    push_cast
    congr 1
    ring
  exact ⟨hdist ▸ h.near, fun htie => tieChoice_neg_iff.2 (h.choice (hdist ▸ htie))⟩

/-- A rounding closer than half a code is no tie. -/
theorem isRounding_of_lt (h : |(r : ℚ) - y| < 1 / 2) : IsRounding tie y r := ⟨h.le, fun htie => absurd htie h.ne⟩

theorem isRounding_intCast (k : ℤ) : IsRounding tie k k := isRounding_of_lt (by norm_num)

/-- Rounding keeps the order of different numbers, whatever the tie rule does. -/
theorem IsRounding.le_of_lt (hx : IsRounding tie x q) (hy : IsRounding tie y r) (hxy : x < y) : q ≤ r := by
  by_contra hlt
  have hstep : (r : ℚ) + 1 ≤ q := by exact_mod_cast not_le.1 hlt
  have hq := (abs_le.1 hx.near).2
  have hr := (abs_le.1 hy.near).1
  linarith

/-- The two neighbours of a tie are not both the rule's choice. -/
theorem not_tieChoice_both (hq : TieChoice tie (q + 1 / 2) q) : ¬TieChoice tie (q + 1 / 2) (q + 1) := by
  cases tie with
  | even => exact Int.not_even_iff_odd.2 hq.add_one
  | away =>
    intro hr
    simp only [TieChoice, Int.cast_add, Int.cast_one] at hq hr
    rcases lt_or_ge q 0 with hneg | hpos
    · have hq1 : (q : ℚ) + 1 ≤ 0 := by exact_mod_cast hneg
      rw [abs_of_nonpos (by linarith), abs_of_nonpos hq1] at hr
      linarith
    · have hq0 : (0 : ℚ) ≤ q := by exact_mod_cast hpos
      rw [abs_of_nonneg (by linarith), abs_of_nonneg hq0] at hq
      linarith

theorem IsRounding.unique (hq : IsRounding tie y q) (hr : IsRounding tie y r) : q = r := by
  by_contra hne
  wlog hlt : q < r generalizing q r
  · exact this hr hq (Ne.symm hne) (lt_of_le_of_ne (not_lt.1 hlt) (Ne.symm hne))
  have hstep : (q : ℚ) + 1 ≤ r := by exact_mod_cast hlt
  have hbelow := (abs_le.1 hq.near).1
  have habove := (abs_le.1 hr.near).2
  obtain rfl : y = q + 1 / 2 := by linarith
  obtain rfl : r = q + 1 := by
    have : (r : ℚ) = q + 1 := by linarith
    exact_mod_cast this
  exact not_tieChoice_both (hq.choice (by norm_num)) (hr.choice (by push_cast; norm_num))

/-- Adding half and rounding down, on the positive side. -/
theorem isRounding_away_floor (hy : 0 ≤ y) : IsRounding .away y ⌊y + 1 / 2⌋ := by
  have hle := Int.floor_le (y + 1 / 2)
  have hlt := Int.lt_floor_add_one (y + 1 / 2)
  refine ⟨abs_le.2 ⟨by linarith, by linarith⟩, fun htie => ?_⟩
  have hup : (⌊y + 1 / 2⌋ : ℚ) = y + 1 / 2 := by
    rcases (abs_eq (by norm_num)).1 htie with h | h <;> linarith
  rw [TieChoice, hup, abs_of_nonneg hy, abs_of_pos (by linarith)]
  linarith

theorem roundRat_isRounding (tie : Tie) (y : ℚ) : IsRounding tie y (roundRat tie y) := by
  cases tie with
  | away =>
    simp only [roundRat]
    split_ifs with hneg
    · simpa using (isRounding_away_floor (neg_nonneg.2 hneg.le)).neg
    · exact isRounding_away_floor (not_lt.1 hneg)
  | even =>
    have hle := Int.floor_le y
    have hlt := Int.lt_floor_add_one y
    simp only [roundRat]
    split_ifs with hbelow habove heven
    · exact isRounding_of_lt (abs_lt.2 ⟨by linarith, by linarith⟩)
    · exact isRounding_of_lt (abs_lt.2 ⟨by push_cast; linarith, by push_cast; linarith⟩)
    · exact ⟨abs_le.2 ⟨by linarith, by linarith⟩, fun _ => Int.even_iff.2 heven⟩
    · exact ⟨abs_le.2 ⟨by push_cast; linarith, by push_cast; linarith⟩,
        fun _ => (Int.not_even_iff_odd.1 (heven ∘ Int.even_iff.1)).add_one⟩

theorem IsRounding.roundRat_eq (h : IsRounding tie y r) : roundRat tie y = r := (roundRat_isRounding tie y).unique h

theorem roundRat_neg (tie : Tie) (y : ℚ) : roundRat tie (-y) = -roundRat tie y :=
  (roundRat_isRounding tie y).neg.roundRat_eq

theorem roundRat_intCast (tie : Tie) (k : ℤ) : roundRat tie k = k := (isRounding_intCast k).roundRat_eq

theorem roundRat_mono (tie : Tie) : Monotone (roundRat tie) := fun x y hxy =>
  hxy.eq_or_lt.elim (fun h => (congrArg _ h).le) ((roundRat_isRounding tie x).le_of_lt (roundRat_isRounding tie y))

theorem roundRat_eq_zero (tie : Tie) (h : |y| < 1 / 2) : roundRat tie y = 0 :=
  (isRounding_of_lt (by simpa using h)).roundRat_eq

/-- Both tie rules take 32767.5 up: 32768 is even. So the upper clip acts from there on (R174). -/
theorem le_roundRat_iff (tie : Tie) (y : ℚ) : 32768 ≤ roundRat tie y ↔ 32767.5 ≤ y := by
  constructor
  · intro h
    have hcode : (32768 : ℚ) ≤ roundRat tie y := by exact_mod_cast h
    have hnear := (abs_le.1 (roundRat_isRounding tie y).near).2
    linarith
  · intro h
    have hclip : IsRounding tie 32767.5 32768 := by
      refine ⟨by norm_num [abs_le], fun _ => ?_⟩
      cases tie with
      | away => norm_num [TieChoice, abs_of_pos]
      | even => exact ⟨16384, rfl⟩
    exact hclip.roundRat_eq ▸ roundRat_mono tie h

theorem roundRat_le_iff (tie : Tie) (y : ℚ) : roundRat tie y ≤ -32768 ↔ y ≤ -32767.5 := by
  have h := le_roundRat_iff tie (-y)
  rwa [roundRat_neg, le_neg, le_neg (a := (32767.5 : ℚ))] at h

/-- Below the clip the rounded sample is a code whose negation is one too. -/
theorem roundRat_inside_iff (tie : Tie) (y : ℚ) :
    -32768 < roundRat tie y ∧ roundRat tie y < 32768 ↔ |y| < 32767.5 := by
  rw [abs_lt, ← not_le, ← not_le, ← not_le, ← not_le, le_roundRat_iff, roundRat_le_iff]

end Rounding

theorem clamp16_mono : Monotone clamp16 := fun _ _ h => min_le_min_right _ (max_le_max_right _ h)

theorem clamp16_of_mem {r : ℤ} (hlo : -32768 ≤ r) (hhi : r ≤ 32767) : clamp16 r = r := by
  rw [clamp16, max_eq_left hlo, min_eq_left hhi]

theorem clamp16_of_ge {r : ℤ} (h : 32767 ≤ r) : clamp16 r = 32767 := min_eq_right (le_max_of_le_left h)

theorem clamp16_of_le {r : ℤ} (h : r ≤ -32768) : clamp16 r = -32768 := by
  rw [clamp16, max_eq_right h]
  rfl

/-- The range of the codes reaches one further down than up. -/
theorem clamp16_neg_iff (r : ℤ) : clamp16 (-r) = -clamp16 r ↔ -32768 < r ∧ r < 32768 := by
  unfold clamp16
  omega

section Fields

theorem f32frac_lt (w : Word) : f32frac w < 2 ^ 23 := Nat.mod_lt _ (by decide)

/-- A pattern's value is its magnitude in units of 2^(-149), with its sign (R95). -/
theorem f32val_eq (w : Word) : f32val w = (if f32sign w then -1 else 1) * (f32mag w / 2 ^ 149) := by
  unfold f32val f32mag
  congr 1
  split_ifs with he
  · rw [zpow_neg, div_eq_mul_inv]
    rfl
  · obtain ⟨e, he⟩ := Nat.exists_eq_succ_of_ne_zero he
    rw [he, show ((e.succ : ℕ) : ℤ) - 150 = (e : ℤ) - (149 : ℕ) by push_cast; ring, zpow_sub₀ two_ne_zero,
      zpow_natCast, zpow_natCast]
    push_cast
    rw [mul_div_assoc]

/-- On a number of units of 2^(-134) the integer rounding is the rational one (R172, R173). -/
theorem roundMag_eq_roundRat (tie : Tie) (n : ℕ) : (roundMag tie n : ℤ) = roundRat tie (n / 2 ^ 134) := by
  cases tie with
  | away =>
    have hhalf : (n : ℚ) / 2 ^ 134 + 1 / 2 = ((n + 2 ^ 133 : ℕ) : ℚ) / ((2 ^ 134 : ℕ) : ℚ) := by
      push_cast
      ring
    have hpos : ¬(n : ℚ) / 2 ^ 134 < 0 := not_lt.2 (by positivity)
    rw [roundRat, if_neg hpos, hhalf, Rat.floor_natCast_div_natCast]
    rfl
  | even =>
    have hfloor : ⌊(n : ℚ) / 2 ^ 134⌋ = ((n / 2 ^ 134 : ℕ) : ℤ) := by
      exact_mod_cast Rat.floor_natCast_div_natCast n (2 ^ 134)
    have hfract : (n : ℚ) / 2 ^ 134 - ((n / 2 ^ 134 : ℕ) : ℤ) = ((n % 2 ^ 134 : ℕ) : ℚ) / 2 ^ 134 := by
      rw [← hfloor, Int.self_sub_floor]
      exact_mod_cast Int.fract_div_natCast_eq_div_natCast_mod (k := ℚ) (m := n) (n := 2 ^ 134)
    have hbelow : ((n % 2 ^ 134 : ℕ) : ℚ) / 2 ^ 134 < 1 / 2 ↔ n % 2 ^ 134 < 2 ^ 133 := by
      rw [div_lt_iff₀ (by positivity), ← Nat.cast_lt (α := ℚ)]
      norm_num
    have habove : 1 / 2 < ((n % 2 ^ 134 : ℕ) : ℚ) / 2 ^ 134 ↔ 2 ^ 133 < n % 2 ^ 134 := by
      rw [lt_div_iff₀ (by positivity), ← Nat.cast_lt (α := ℚ)]
      norm_num
    simp only [roundRat, roundMag, hfloor, hfract, hbelow, habove]
    norm_cast

/-- The rounded sample is the rounded magnitude with the sample's sign (R173). -/
theorem roundRat_f32val (tie : Tie) (w : Word) :
    roundRat tie (f32val w * 32768) =
      if f32sign w then -(roundMag tie (f32mag w) : ℤ) else roundMag tie (f32mag w) := by
  have hscale : f32val w * 32768 = (if f32sign w then -1 else 1) * (f32mag w / 2 ^ 134) := by
    rw [f32val_eq]
    ring
  rw [hscale, roundMag_eq_roundRat]
  split_ifs
  · rw [neg_one_mul, roundRat_neg]
  · rw [one_mul]

end Fields

/-- The integer quantizer on a finite pattern; NAN_CODE is not read. -/
theorem q16_eq_clamp16_roundMag {tie : Tie} {nan : BitVec 16} {w : Word} (h : f32exp w ≠ 255) :
    q16 tie nan w =
      clamp16 (if f32sign w then -(roundMag tie (f32mag w) : ℤ) else roundMag tie (f32mag w)) := by
  rw [q16, if_neg h]

/-- Settles O28: the two agree case by case, and on finite patterns by `roundRat_f32val`. -/
theorem quantizerIsTheRationalDefinition : Obligations.QuantizerIsTheRationalDefinition := by
  intro tie nan w
  by_cases he : f32exp w = 255
  · by_cases hm : f32frac w = 0 <;> simp [q16, q16Rat, he, hm]
  · rw [q16_eq_clamp16_roundMag he, ← roundRat_f32val]
    simp [q16Rat, he]

section Properties

variable {tie : Tie} {nan : BitVec 16} {w : Word}

/-- R178 on a finite pattern. -/
theorem q16_of_finite (h : f32exp w ≠ 255) : q16 tie nan w = clamp16 (roundRat tie (f32val w * 32768)) := by
  rw [q16_eq_clamp16_roundMag h, ← roundRat_f32val]

theorem q16_of_nan (he : f32exp w = 255) (hm : f32frac w ≠ 0) : q16 tie nan w = nan.toInt := by
  rw [q16, if_pos he, if_neg hm]

theorem f32exp_xor_signBit (w : Word) : f32exp (w ^^^ 0x80000000#32) = f32exp w := by
  have hfield (x : Word) : f32exp x = (x.extractLsb' 23 8).toNat := by
    simp [f32exp, Nat.shiftRight_eq_div_pow]
  simp [hfield, BitVec.extractLsb'_xor]

theorem f32frac_xor_signBit (w : Word) : f32frac (w ^^^ 0x80000000#32) = f32frac w := by
  have hfield (x : Word) : f32frac x = (x.extractLsb' 0 23).toNat := by
    simp [f32frac]
  simp [hfield, BitVec.extractLsb'_xor]

/-- Flipping the sign bit negates the value. -/
theorem f32val_xor_signBit (w : Word) : f32val (w ^^^ 0x80000000#32) = -f32val w := by
  have hsign : f32sign (w ^^^ 0x80000000#32) = !f32sign w := by simp [f32sign]
  have hmag : f32mag (w ^^^ 0x80000000#32) = f32mag w := by
    rw [f32mag, f32exp_xor_signBit, f32frac_xor_signBit, f32mag]
  rw [f32val_eq, f32val_eq, hsign, hmag]
  cases f32sign w <;> simp

/-- A finite sample lies below the clip exactly when its rounded value does. -/
theorem roundRat_f32val_inside_iff (tie : Tie) (w : Word) :
    -32768 < roundRat tie (f32val w * 32768) ∧ roundRat tie (f32val w * 32768) < 32768 ↔
      |f32val w| < 32767.5 / 32768 := by
  rw [roundRat_inside_iff, abs_mul, lt_div_iff₀ (by norm_num), abs_of_pos (by norm_num : (0 : ℚ) < 32768)]

end Properties

/-- Settles O30: rounding and clamping keep the order; both sides of the oddness are `clamp16` of a number and of its
negation, which are negations of each other exactly inside the clip. -/
theorem quantizerIsMonotoneAndOddBelowTheClip : Obligations.QuantizerIsMonotoneAndOddBelowTheClip := by
  refine ⟨fun tie nan w₁ w₂ h₁ h₂ hle => ?_, fun tie nan w h => ?_⟩
  · rw [q16_of_finite h₁, q16_of_finite h₂]
    exact clamp16_mono (roundRat_mono tie (mul_le_mul_of_nonneg_right hle (by norm_num)))
  · have hflip : f32exp (w ^^^ 0x80000000#32) ≠ 255 := f32exp_xor_signBit w ▸ h
    rw [q16_of_finite hflip, q16_of_finite h, f32val_xor_signBit, neg_mul, roundRat_neg, clamp16_neg_iff,
      roundRat_f32val_inside_iff]

/-- Settles O31: both rules round ±32767.5 to ±32768, below that the clamp does nothing and rounding is to the
nearest, and a code rounds to itself. -/
theorem quantizerClipsAndIsNearest : Obligations.QuantizerClipsAndIsNearest := by
  intro tie nan w hfin
  rw [q16_of_finite hfin]
  refine ⟨fun hhi => ?_, fun hlo => ?_, fun hin => ?_, fun k hklo hkhi hk => ?_⟩
  · have hround := (le_roundRat_iff tie (f32val w * 32768)).2 (by linarith)
    exact clamp16_of_ge (by omega)
  · exact clamp16_of_le ((roundRat_le_iff tie _).2 (by linarith))
  · obtain ⟨hlo, hhi⟩ := (roundRat_f32val_inside_iff tie w).2 hin
    rw [clamp16_of_mem hlo.le (by omega), mul_comm 32768]
    exact (roundRat_isRounding tie _).near
  · rw [hk, div_mul_cancel₀ _ (by norm_num), roundRat_intCast, clamp16_of_mem hklo hkhi]

/-- Settles O33: below 2^(-16) the scaled sample is less than half a code from 0; the zeros and the first tie are
evaluated. -/
theorem smallSamplesQuantizeToZero : Obligations.SmallSamplesQuantizeToZero := by
  refine ⟨fun tie nan w hfin hsmall => ?_, fun tie nan => ?_, fun nan => ?_⟩
  · have hhalf : |f32val w * 32768| < 1 / 2 := by
      rw [abs_mul, abs_of_pos (by norm_num : (0 : ℚ) < 32768)]
      norm_num at hsmall
      linarith
    rw [q16_of_finite hfin, roundRat_eq_zero tie hhalf]
    rfl
  · simp (disch := decide) only [q16_eq_clamp16_roundMag]
    cases tie <;> decide
  · simp (disch := decide) only [q16_eq_clamp16_roundMag]
    decide

/-- Settles O32: an infinity has e = 255 and m = 0. -/
theorem infinitiesClamp : Obligations.InfinitiesClamp := fun _ _ => ⟨rfl, rfl⟩

/-- Settles O34 by evaluating the integer quantizer on each pattern of R181; all are finite, so NAN_CODE is not read. -/
theorem boundaryPatternTable : Obligations.BoundaryPatternTable := by
  intro nan
  simp (disch := decide) only [q16_eq_clamp16_roundMag]
  decide

section BitLevelForm

variable {w : Word}

theorem f32mag_lt (w : Word) : f32mag w < 2 ^ 24 * 2 ^ (f32exp w - 1) := by
  have hm := f32frac_lt w
  unfold f32mag
  split_ifs with he
  · rw [he]
    omega
  · exact Nat.mul_lt_mul_of_pos_right (by omega) (by positivity)

/-- e ≤ 110 is |y| < 1/2. -/
theorem roundMag_away_eq_zero (he : f32exp w ≤ 110) : roundMag .away (f32mag w) = 0 := by
  have hpow : 2 ^ (f32exp w - 1) ≤ 2 ^ 109 := Nat.pow_le_pow_right (by decide) (by omega)
  have hmag := f32mag_lt w
  exact Nat.div_eq_of_lt (by omega)

/-- e ≥ 127 is |y| ≥ 32768. -/
theorem le_roundMag_away_of_le_exp (he : 127 ≤ f32exp w) : 32768 ≤ roundMag .away (f32mag w) := by
  have hpow : 2 ^ 126 ≤ 2 ^ (f32exp w - 1) := Nat.pow_le_pow_right (by decide) (by omega)
  have hmag : 2 ^ 23 * 2 ^ 126 ≤ f32mag w := by
    rw [f32mag, if_neg (by omega)]
    exact Nat.mul_le_mul (by omega) hpow
  exact (Nat.le_div_iff_mul_le (by decide)).2 (by omega)

/-- e ≤ 126 is |y| < 32768. -/
theorem roundMag_away_le_of_exp_le (he : f32exp w ≤ 126) : roundMag .away (f32mag w) ≤ 32768 := by
  have hpow : 2 ^ (f32exp w - 1) ≤ 2 ^ 125 := Nat.pow_le_pow_right (by decide) (by omega)
  have hmag := f32mag_lt w
  exact Nat.le_of_lt_succ ((Nat.div_lt_iff_lt_mul (by decide)).2 (by omega))

/-- In between |y| is the significand over 2^sh, and rounding adds half of 2^sh before the shift. -/
theorem roundMag_away_eq_shift (hlo : 1 ≤ f32exp w) (hhi : f32exp w ≤ 134) :
    roundMag .away (f32mag w) =
      (2 ^ 23 + f32frac w + 2 ^ (135 - f32exp w - 1)) >>> (135 - f32exp w) := by
  have hhalf : 2 ^ 133 = 2 ^ (135 - f32exp w - 1) * 2 ^ (f32exp w - 1) := by
    rw [← Nat.pow_add]
    congr 1
    omega
  have hone : 2 ^ 134 = 2 ^ (135 - f32exp w) * 2 ^ (f32exp w - 1) := by
    rw [← Nat.pow_add]
    congr 1
    omega
  rw [roundMag, f32mag, if_neg (by omega), hhalf, hone, ← Nat.add_mul, Nat.mul_div_mul_right _ _ (by positivity),
    Nat.shiftRight_eq_div_pow]

end BitLevelForm

/-- Settles O29: at e = 255 both forms give the same constants; e ≥ 127 clips, e ≤ 110 rounds to 0, and in between
the shift is the rounded magnitude, at most 32768. -/
theorem bitLevelFormEqualsQuantizer : Obligations.BitLevelFormEqualsQuantizer := by
  intro nan w
  by_cases hspecial : f32exp w = 255
  · by_cases hm : f32frac w = 0 <;> simp [q16Bits, q16, hspecial, hm]
  rw [q16_eq_clamp16_roundMag hspecial]
  simp only [q16Bits, hspecial, false_and, if_false]
  rcases le_or_gt 127 (f32exp w) with hclip | hbelow
  · have hround := le_roundMag_away_of_le_exp hclip
    rw [if_pos hclip]
    split_ifs
    · exact (clamp16_of_le (by omega)).symm
    · exact (clamp16_of_ge (by omega)).symm
  · rw [if_neg (by omega)]
    rcases le_or_gt (f32exp w) 110 with hsmall | hlarge
    · rw [if_pos hsmall, roundMag_away_eq_zero hsmall]
      split_ifs <;> rfl
    · have hround := roundMag_away_le_of_exp_le (w := w) (by omega)
      rw [if_neg (by omega), ← roundMag_away_eq_shift (by omega) (by omega), clamp16]
      split_ifs <;> omega

section SampleWrites

variable {s : State} {w : Word} {n v u : Nat} {writer : Word → List Byte}

theorem advanceSample_phase (s : State) : (advanceSample s).phase = .payload ∨ (advanceSample s).phase = .done := by
  unfold advanceSample
  split_ifs
  · exact .inl rfl
  · exact .inl rfl
  · exact .inr rfl

/-- A sample step with its sample supplied and room at WP writes the writer's number there and advances (R192). -/
theorem exists_sampleStep (hread : srcRead s s.c s.f = some w) (hready : OutReady s (samplePointer s) n)
    (hwriter : writer w = leBytes n v) (hu : v % 2 ^ (8 * n) = u) :
    ∃ m, sampleStep s writer = .next (advanceSample (s.withBytes m (samplePointer s) (leBytes n v))) ∧
      WroteNum s (advanceSample (s.withBytes m (samplePointer s) (leBytes n v))) (samplePointer s) n u := by
  obtain ⟨m, hm, hstore⟩ := hready.exists_storeBytes (leBytes_length n v)
  refine ⟨m, ?_, hu ▸ wroteNum_of_out hm (advanceSample_onlySeqChanged _).out_eq⟩
  simp only [sampleStep, hread, hwriter, hstore]

theorem sampleQ16_of_nan (he : f32exp w = 255) (hm : f32frac w ≠ 0) :
    sampleQ16 w = leBytes 2 Config.nanCode.toNat := by
  rw [sampleQ16, q16_of_nan he hm, tc16, BitVec.ofInt_toInt]

end SampleWrites

/-- Settles O37: the code of a NaN is NAN_CODE, and the step is a sample step like any other. -/
theorem nanSampleWritesNanCode : Obligations.NanSampleWritesNanCode := by
  intro s w hread he hm hready
  have hcode := Nat.mod_eq_of_lt Config.nanCode.isLt
  obtain ⟨m, hstep, hwrote⟩ := exists_sampleStep hread hready (sampleQ16_of_nan he hm) hcode
  exact ⟨_, hstep, hwrote, advanceSample_phase _⟩

end Sys2Proof.Machine

/-! The sample steps and the samples in the file (43_payload_writers.md R192 to R199). -/

namespace Sys2Proof.Machine

section SampleSteps

variable {s : State} {w : Word} {n v : Nat} {writer : Word → List Byte}

theorem sampleStep_of_not_supplied (h : srcRead s s.c s.f = none) :
    sampleStep s writer = .refused .sampleNotSupplied := by
  simp only [sampleStep, h]

theorem advanceSample_nextChannel (hmore : s.k.toNat + 1 < sampleCount s) (hc : s.c.toNat + 1 < s.nch.toNat) :
    advanceSample s = s.toPayload (s.k + 1#48) s.f (s.c + 1#16) := by
  rw [advanceSample, if_pos hmore, if_pos hc]

theorem advanceSample_nextFrame (hmore : s.k.toNat + 1 < sampleCount s) (hc : ¬s.c.toNat + 1 < s.nch.toNat) :
    advanceSample s = s.toPayload (s.k + 1#48) (s.f + 1#32) 0#16 := by
  rw [advanceSample, if_pos hmore, if_neg hc]

theorem advanceSample_last (hlast : ¬s.k.toNat + 1 < sampleCount s) : advanceSample s = s.toPhase .done := by
  rw [advanceSample, if_neg hlast]

/-- From s to t nothing changed but OUT, and SEQ with its counters as a sample step advances them (R31, R192). -/
def Advanced (s t : State) : Prop :=
  (s.k.toNat + 1 < s.nch.toNat * s.nfr.toNat → s.c.toNat + 1 < s.nch.toNat →
    t = { s with phase := .payload, k := s.k + 1#48, c := s.c + 1#16, out := t.out }) ∧
  (s.k.toNat + 1 < s.nch.toNat * s.nfr.toNat → ¬s.c.toNat + 1 < s.nch.toNat →
    t = { s with phase := .payload, k := s.k + 1#48, f := s.f + 1#32, c := 0#16, out := t.out }) ∧
  (¬s.k.toNat + 1 < s.nch.toNat * s.nfr.toNat → t = { s with phase := .done, out := t.out })

theorem advanced_advanceSample (s : State) (m : Option Memory) : Advanced s (advanceSample (s.setOut m)) := by
  refine ⟨fun hmore hc => ?_, fun hmore hc => ?_, fun hlast => ?_⟩
  · rw [advanceSample_nextChannel (s := s.setOut m) hmore hc]
    rfl
  · rw [advanceSample_nextFrame (s := s.setOut m) hmore hc]
    rfl
  · rw [advanceSample_last (s := s.setOut m) hlast]
    rfl

/-- A writer that writes the number v in n bytes, v no wider than that, writes it whole, and SEQ advances. -/
theorem sampleStep_writes_advances (hread : srcRead s s.c s.f = some w) (hready : OutReady s (samplePointer s) n)
    (hwriter : writer w = leBytes n v) (hv : v < 2 ^ (8 * n)) :
    ∃ t, sampleStep s writer = .next t ∧ WroteNum s t (samplePointer s) n v ∧ Advanced s t := by
  obtain ⟨m, hstep, hwrote⟩ := exists_sampleStep hread hready hwriter (Nat.mod_eq_of_lt hv)
  exact ⟨_, hstep, hwrote, advanced_advanceSample s _⟩

end SampleSteps

/-- Settles O35: the Int16 writer writes the 16-bit code in 2 bytes (R194). -/
theorem int16SampleStep : Obligations.Int16SampleStep := fun _ =>
  ⟨fun _ hread hready => sampleStep_writes_advances hread hready rfl (BitVec.isLt _), sampleStep_of_not_supplied⟩

/-- Settles O36: the Float32 writer writes the 32-bit pattern in 4 bytes (R195). -/
theorem float32SampleStep : Obligations.Float32SampleStep := fun _ =>
  ⟨fun w hread hready => sampleStep_writes_advances hread hready rfl w.isLt, sampleStep_of_not_supplied⟩

section FileReadBack

variable {v : Variant} {nch nfr c f : Nat}

/-- A number read behind a header of 44 bytes is read from what follows the header. -/
theorem headerField_append_of_length {h bs : List Byte} (hlen : h.length = 44) (x n : Nat) :
    headerField (h ++ bs) (44 + x) n = leValue ((bs.drop x).take n) := by
  rw [headerField, ← hlen, List.drop_length_add_append]

/-- The payload's bytes at the place of a sample are the sample's (R193). -/
theorem take_drop_payloadBytes (src : Nat → Nat → Word) (hc : c < nch) (hf : f < nfr) :
    ((payloadBytes v nch nfr src).drop ((f * nch + c) * v.bytes)).take v.bytes = sampleBytes v (src c f) := by
  refine List.ext_getElem? fun i => ?_
  rcases Nat.lt_or_ge i v.bytes with hi | hi
  · rw [List.getElem?_take_of_lt hi, List.getElem?_drop, payloadBytes_getElem? src hc hf hi]
  · rw [List.getElem?_take_eq_none hi, List.getElem?_eq_none (by rwa [sampleBytes_length])]

/-- A sample's bytes, read back, are the code of it (R194, R199). -/
theorem leValue_sampleQ16 (w : Word) : leValue (sampleQ16 w) = (tc16 (q16 .away Config.nanCode w)).toNat :=
  (leValue_leBytes ..).trans (Nat.mod_eq_of_lt (BitVec.isLt _))

/-- A sample's bytes, read back, are its pattern (R195, R199). -/
theorem leValue_sampleF32 (w : Word) : leValue (sampleF32 w) = w.toNat :=
  (leValue_leBytes ..).trans (Nat.mod_eq_of_lt w.isLt)

theorem getElem?_append_middle_congr {α : Type} {xs ys ys' zs : List α} {a : Nat} (hlen : ys.length = ys'.length)
    (ha : a < xs.length ∨ xs.length + ys.length ≤ a) : (xs ++ ys ++ zs)[a]? = (xs ++ ys' ++ zs)[a]? := by
  rcases ha with hbefore | hafter
  · rw [List.append_assoc, List.append_assoc, List.getElem?_append_left hbefore, List.getElem?_append_left hbefore]
  · rw [List.getElem?_append_right (by rwa [List.length_append]),
      List.getElem?_append_right (by rwa [List.length_append, ← hlen]), List.length_append, List.length_append, hlen]

/-- SampleRate and ByteRate stand in bytes 24 to 31 of the header, whatever they are (R143). -/
theorem exists_header_eq_append_rates (afmt bits nch bpf dlen flen : Nat) :
    ∃ xs zs : List Byte, xs.length = 24 ∧ ∀ srate bpsec,
      header afmt bits nch srate bpsec bpf dlen flen = xs ++ (leBytes 4 srate ++ leBytes 4 bpsec) ++ zs :=
  ⟨tagBytes .riff ++ leBytes 4 (flen - 8) ++ tagBytes .wave ++ tagBytes .fmt ++ leBytes 4 16 ++ leBytes 2 afmt
      ++ leBytes 2 nch,
    leBytes 2 bpf ++ leBytes 2 bits ++ tagBytes .data ++ leBytes 4 dlen, by simp, fun _ _ => by simp [header]⟩

/-- Two headers that differ in the sample rate and the byte rate agree outside bytes 24 to 31 (R199). -/
theorem header_append_getElem?_congr_rates {afmt bits nch bpf dlen flen srate srate' bpsec bpsec' a : Nat}
    {bs : List Byte} (ha : a < 24 ∨ 32 ≤ a) :
    (header afmt bits nch srate bpsec bpf dlen flen ++ bs)[a]? =
      (header afmt bits nch srate' bpsec' bpf dlen flen ++ bs)[a]? := by
  obtain ⟨xs, zs, hlen, hheader⟩ := exists_header_eq_append_rates afmt bits nch bpf dlen flen
  rw [hheader, hheader, List.append_assoc _ zs, List.append_assoc _ zs]
  exact getElem?_append_middle_congr (by simp) (by simpa [hlen] using ha)

end FileReadBack

/-- Settles O40: the file is the header and, 44 bytes on, the samples frame by frame, and only the header's two rates
depend on SRATE. -/
theorem fileHoldsEverySample : Obligations.FileHoldsEverySample := by
  intro fmt v nch nfr srate srate' src file file' hv hfile hfile'
  rw [encodeFile_of_variantOf hv] at hfile hfile'
  obtain rfl := Option.some.inj hfile
  obtain rfl := Option.some.inj hfile'
  refine ⟨?_, fun c f hc hf => ?_, fun a ha => header_append_getElem?_congr_rates ha⟩
  · rw [List.length_append, header_length, payloadBytes_length]
  · rw [headerField_append_of_length (header_length ..), take_drop_payloadBytes src hc hf]
    cases v with
    | int16 => exact leValue_sampleQ16 _
    | float32 => exact leValue_sampleF32 _

end Sys2Proof.Machine

/-! The exception (60_exceptions.md): an unrecognised selector raises it, ACK and START lead back to it, and no step of a
run faults (R210). -/

namespace Sys2Proof.Machine

section UnsupportedFormat

variable {s : State}

/-- A selector other than 1 and 3 names no variant (30_encoding.md R101). -/
theorem variantOf_eq_none {fmt : BitVec 32} (h₁ : fmt ≠ 1#32) (h₃ : fmt ≠ 3#32) : variantOf fmt = none := by
  rw [variantOf, if_neg h₁, if_neg h₃]

/-- STATUS in ERROR: ECODE = 1 and ERR (R211). -/
theorem statusWord_error : statusWord .error = 0x00000104#32 := by decide

/-- In a block at rest everything that ACK clears is clear already (40_commands.md R125). -/
theorem AtRest.cleared_eq (h : AtRest s) : ((s.setOut none).setLay Layout.zero).clearCounters = s := by
  cases s
  obtain ⟨rfl, rfl, rfl, rfl, rfl, rfl⟩ := h
  rfl

theorem AtRest.acknowledge_of_error (h : AtRest s) (hp : s.phase = .error) : acknowledge s = s.toPhase .idle := by
  rw [acknowledge_of_done_or_error (.inr hp), h.cleared_eq]

theorem step_ack {es : List Event} (ha : s.agenda = ackEvent :: es) :
    step s = .next (acknowledge (s.setAgenda es)) := by
  have hturn : HostTurn s (.regWrite 0x00 4 2#32) := by simp [HostTurn, ha, ackEvent]
  have htaken : taken s = s.setAgenda es := by rw [taken, ha, List.tail_cons]
  rw [step_ctrlWrite hturn rfl, htaken]
  rfl

end UnsupportedFormat

/-- Settles O18: CHECK raises the exception, which changes PHASE alone; in CHECK the block is at rest. -/
theorem unsupportedFormatEntersError : Obligations.UnsupportedFormatEntersError := by
  intro s he hp h₁ h₃
  refine ⟨_, step_enc_check_unsupported he hp (variantOf_eq_none h₁ h₃), rfl, statusWord_error, fun hinv => ?_⟩
  have hrest := hinv.atRest (.inr (.inl hp))
  exact ⟨hrest.out, hrest.lay⟩

/-- Settles O19: START changes PHASE alone, and so does the exception. -/
theorem unsupportedFormatIsPrecise : Obligations.UnsupportedFormatIsPrecise := by
  intro s hp ha h₁ h₃
  have hcheck := step_enc_check_unsupported (s := (s.setAgenda []).toPhase .check) (.inl rfl) rfl
    (variantOf_eq_none h₁ h₃)
  exact (run_succ (step_start hp ha) 1).trans (run_succ hcheck 0)

/-- Settles O20: in ERROR the block is at rest, so ACK changes PHASE alone, and START with the same selector is O19. -/
theorem retryRaisesTheSameError : Obligations.RetryRaisesTheSameError := by
  intro s hinv hp h₁ h₃ ha
  have hrest : AtRest (s.setAgenda [startEvent]) := 
    (hinv.atRest (.inr (.inr hp))).setHostSide [startEvent] s.src s.reply
  have hack : step s = .next ((s.setAgenda [startEvent]).toPhase .idle) :=
    (step_ack ha).trans (congrArg _ (hrest.acknowledge_of_error hp))
  calc Host.Core.run core 3 s = Host.Core.run core 2 ((s.setAgenda [startEvent]).toPhase .idle) := run_succ hack 2
    _ = .next { s with phase := .error, agenda := [] } := unsupportedFormatIsPrecise _ rfl rfl h₁ h₃
    _ = .next { s with agenda := [] } := by rw [← hp]

section SafeSteps

variable {s t : State}

theorem safeStep_of_next (h : step s = .next t) : SafeStep s := by
  simp [SafeStep, h]

/-- Every refusal but that of a reserved header step is one the spec asks for (U2, U5, U7, U9). -/
theorem safeStep_of_refused {r : Refusal} (h : step s = .refused r) (hr : r ≠ .reservedHeaderStep) : SafeStep s := by
  simpa [SafeStep, h] using hr

/-- CHECK goes on to HEADER or to ERROR, or the file is larger than OUT_CAP (U7). -/
theorem safeStep_enc_check (he : EncTurn s) (hp : s.phase = .check) : SafeStep s := by
  cases hv : variantOf s.fmt with
  | none => exact safeStep_of_next (step_enc_check_unsupported he hp hv)
  | some v =>
    have hstep := step_enc_check he hp hv
    cases hcap : fitsCap (taken s).outCap (44 + (taken s).nch.toNat * (taken s).nfr.toNat * v.bytes) with
    | true => exact safeStep_of_next (hstep.trans (checkStep_of_fits hcap))
    | false => exact safeStep_of_refused (hstep.trans (checkStep_of_not_fits hcap)) nofun

/-- A sample step has room for its bytes; it stops only at a sample that HOST did not supply (U2). -/
theorem safeStep_enc_payload (hcount : Counting s) (hlive : Live s) (he : EncTurn s) (hp : s.phase = .payload) :
    SafeStep s := by
  obtain ⟨m, hm, -⟩ := hlive.buffer
  obtain ⟨v, hv⟩ := exists_wsel_eq s.lay.wsel
  have hstep := step_enc_payload he hp hv
  cases hw : srcRead s s.c s.f with
  | none => exact safeStep_of_refused (hstep.trans (sampleStep_of_not_supplied (s := taken s) hw)) nofun
  | some w =>
    have hfit : samplePointer s + (sampleBytes v w).length ≤ s.lay.flen.toNat := by
      simpa using hlive.sample_fits hcount.count hv
    exact safeStep_of_next (hstep.trans (sampleStep_next_iff.2 ⟨w, m, hw, hm, hfit, rfl⟩))

theorem Inv.safeStep_of_encTurn (h : Inv s) (he : EncTurn s) : SafeStep s := by
  rcases busy_or_rest s with (hp | hp | hp) | hp
  · exact safeStep_enc_check he hp
  · obtain ⟨t, hstep, -⟩ := header_advances he hp h.phase
    exact safeStep_of_next hstep
  · obtain ⟨hcount, hlive⟩ := h.payload hp
    exact safeStep_enc_payload hcount hlive he hp
  · exact safeStep_of_next (step_enc_rest he hp)

/-- A read of OUT is refused outside DONE and beyond FLEN (U5); in DONE every byte below FLEN is written. -/
theorem Inv.safeStep_outRead {addr n : Nat} (h : Inv s) (ha : HostTurn s (.outRead addr n)) : SafeStep s := by
  obtain ⟨hnot, hbeyond, hread⟩ := outIsReadableOnlyInDone s addr n ha
  by_cases hp : s.phase = .done
  · rcases Nat.lt_or_ge s.lay.flen.toNat (addr + n) with hfit | hfit
    · exact safeStep_of_refused (hbeyond hp hfit) nofun
    · obtain ⟨bs, hstep, -⟩ := hread h hp hfit
      exact safeStep_of_next hstep
  · exact safeStep_of_refused (hnot hp) nofun

/-- A register access answers, or it is one outside the map (U9). -/
theorem safeStep_of_regAccess {offset size : Nat} {w : Word}
    (ha : HostTurn s (.regWrite offset size w) ∨ HostTurn s (.regRead offset size)) : SafeStep s := by
  obtain ⟨hbad, hgood⟩ := registerAccessIsAlignedWord s offset size w
  by_cases hmap : size = 4 ∧ offset % 4 = 0 ∧ offset ≤ 0x1C
  · obtain ⟨t, hstep⟩ := ha.elim (hgood hmap).1 (hgood hmap).2
    exact safeStep_of_next hstep
  · exact safeStep_of_refused (ha.elim (hbad hmap).1 (hbad hmap).2) nofun

theorem Inv.safeStep_of_hostTurn {a : HostAction} (h : Inv s) (ha : HostTurn s a) : SafeStep s := by
  cases a with
  | regWrite offset size w => exact safeStep_of_regAccess (.inl ha)
  | regRead offset size => exact safeStep_of_regAccess (w := 0#32) (.inr ha)
  | outRead addr n => exact h.safeStep_outRead ha
  | sample c i w => exact safeStep_of_next (step_sample ha)
  | reset => exact safeStep_of_next (step_of_fetch_act (fetch_of_hostTurn ha))

end SafeSteps

/-- Settles O43: ENC's steps by phase, HOST's by action; the invariant gives OUT with room for every write and, in
DONE, every byte that HOST reads. -/
theorem noStepFaults : Obligations.NoStepFaults := fun s hinv =>
  (encTurn_or_hostTurn s).elim hinv.safeStep_of_encTurn fun ⟨_, ha⟩ => hinv.safeStep_of_hostTurn ha

end Sys2Proof.Machine

/-! The reset event (70_reset_and_hazards.md R230): one step from any phase, after which every register reads 0. -/

namespace Sys2Proof.Machine

section ResetEvent

variable {s : State}

theorem step_reset (h : HostTurn s .reset) : step s = .next (resetBlock (taken s)) :=
  step_of_fetch_act (fetch_of_hostTurn h)

/-- What HOST reads after a reset does not depend on the state before it, and is 0 (10_state.md R45). -/
theorem regValue_resetBlock (r : Reg) : regValue (resetBlock s) r = 0#32 :=
  calc regValue (resetBlock s) r = regValue State.reset r := by cases r <;> rfl
    _ = 0#32 := by cases r <;> rfl

end ResetEvent

/-- Settles O16: the step is `resetBlock`, which keeps HOST's side alone, and every register then reads 0. -/
theorem resetEventClearsTheBlock : Obligations.ResetEventClearsTheBlock := fun _ h =>
  ⟨_, step_reset h, rfl, regValue_resetBlock .status, regValue_resetBlock .flenLo, regValue_resetBlock .flenHi⟩

end Sys2Proof.Machine
